-- ==== Sys2Proof/Word.lean ====
section
/-! DEFINITION. The word types of the engine: the byte (00_scope.md R11) and byte strings (R12). -/

namespace Sys2Proof

/-- A byte: 8 bits, an unsigned integer 0 to 255 (R11). -/
abbrev Byte := BitVec 8

/-- A byte string, byte 0 first (R12). -/
abbrev Bytes := List Byte

end Sys2Proof
end

