-- ==== Sys2Proof/Config.lean ====
section
/-! DEFINITION. What an implementation fixes: the fixed parameters (00_scope.md R9), the open and decided parameters
(R10) with the platform's PLATFORM_MAP (20_memory.md R67) as a record the state carries, and the free values of the model
(opaque: no proof can see one). -/

namespace Sys2Proof

namespace Config

/-- EDID_BLOCK_LEN (R9). -/
abbrev edidBlockLen : Nat := 128
/-- EDID_EXT_OFFSET (R9). -/
abbrev edidExtOffset : Nat := 0x7E
/-- EDID_MAX_BLOCKS (R9). -/
abbrev edidMaxBlocks : Nat := 2
/-- READY_BYTE (R9). -/
abbrev readyByte : Byte := 0x05
/-- POLL_ATTEMPTS (R9). -/
abbrev pollAttempts : Nat := 3
/-- POLL_DELAY_MS (R9). -/
abbrev pollDelayMs : Nat := 1000
/-- CMD_DELAY_MS (R9). -/
abbrev cmdDelayMs : Nat := 1000
/-- FU_REPLY_DELAY_MS (R9). -/
abbrev fuReplyDelayMs : Nat := 1000
/-- LINK_SETTLE_MS (R9). -/
abbrev linkSettleMs : Nat := 100
/-- FW_BAUD (R9). -/
abbrev fwBaud : BitVec 32 := 19200
/-- NORMAL_BAUD (R9). -/
abbrev normalBaud : BitVec 32 := 115200
/-- The first byte of FU_MAGIC, 'F' (R9). -/
abbrev magic0 : Byte := 0x46
/-- The second byte of FU_MAGIC, 'U' (R9). -/
abbrev magic1 : Byte := 0x55
/-- FU_REPLY_XOR (R9). -/
abbrev fuReplyXor : Byte := 0x80
/-- FW_PART1_LEN (R9). -/
abbrev fwPart1Len : Nat := 0x40
/-- FW_PART2_LEN (R9). -/
abbrev fwPart2Len : Nat := 0x2A40
/-- FW_IMAGE_LEN (R9). -/
abbrev fwImageLen : Nat := 0x2A82
/-- FW_CHUNK_LEN (R9). -/
abbrev fwChunkLen : Nat := 64
/-- FW_NCHUNKS (R9; 169, as 90_conflicts.md C1 resolves). -/
abbrev fwNChunks : Nat := 169
/-- MODEL_NAME_LEN (R9). -/
abbrev modelNameLen : Nat := 9
/-- FRAME_CAP (R10: fixed by the spec, not a free argument). -/
abbrev frameCap : Nat := 256
/-- Bytes of INFO_BUF, and of the 0x90 reply it keeps (10_state.md R46). -/
abbrev infoLen : Nat := 50

end Config

/-- The five byte buffers (10_state.md R46). -/
inductive Buf where
  /-- EDID_BUF: the EDID blob, block 0 then block 1. -/
  | edid
  /-- FW_BUF: the firmware image. -/
  | fw
  /-- FRAME_BUF: a firmware packet being encoded, decoded or sent. -/
  | frame
  /-- RX_BUF: the last firmware reply read. -/
  | rx
  /-- INFO_BUF: the last 0x90 reply. -/
  | info
deriving DecidableEq, Repr

/-- What the device answers when an outcome is drawn (20_memory.md R72, R74, R77). -/
structure Answer where
  /-- `ioerr` (LinkWrite, LinkReadBytes) or `fail` (LinkSetBaud). -/
  fails : Bool
  /-- On `ioerr`: how many bytes of the write were sent, or of the queue were removed, the length of that prefix at most. -/
  count : Nat
deriving DecidableEq, Repr, Inhabited

/-- RESTORE_POLICY (43_fw_update.md R235). -/
inductive RestorePolicy where
  /-- PRESERVE: restore the rate and RTS level saved at entry. -/
  | preserve
  /-- HARD: 115200 and RTS asserted. -/
  | hard
deriving DecidableEq, Repr

/-- STATUS_OFFS (R10): per phase, the reply offsets that must hold 0x00. Phase EN has none. -/
structure StatusOffs where
  /-- Phase 0x80. -/
  mode : List Nat
  /-- Phase 0x90. -/
  di : List Nat
  /-- Phase 0xA0. -/
  ct : List Nat
  /-- Phase 0xA2. -/
  part1 : List Nat
  /-- Phase 0xA3. -/
  part2 : List Nat
  /-- Phase 0xA4. -/
  dt : List Nat
  /-- Phase 0xA5. -/
  ad : List Nat
deriving DecidableEq, Repr

/-- PLATFORM_MAP (20_memory.md R67; 92_eei_decisions.md D2): the address, in the host's own address map, at which the register
space and each buffer begin (log 22). -/
structure PlatformMap where
  /-- The register space. -/
  regs : Nat
  /-- EDID_BUF. -/
  edid : Nat
  /-- FW_BUF. -/
  fw : Nat
  /-- FRAME_BUF. -/
  frame : Nat
  /-- RX_BUF. -/
  rx : Nat
  /-- INFO_BUF. -/
  info : Nat
deriving DecidableEq, Repr, Inhabited

/-- The open and decided parameters (R10), "each a named parameter the model takes as an argument" (log 7), and PLATFORM_MAP. -/
structure Params where
  /-- FW_TAG; FW_TAG_LEN is its length. -/
  fwTag : Bytes
  /-- MODEL_NAME. -/
  modelName : Bytes
  /-- MODEL_NAME_OFFSET. -/
  modelNameOffset : Nat
  /-- RESTORE_POLICY. -/
  restorePolicy : RestorePolicy
  /-- INITIAL_BAUD. -/
  initialBaud : BitVec 32
  /-- INITIAL_RTS. -/
  initialRts : Bool
  /-- FRAME80_LEN. -/
  frame80Len : Nat
  /-- FRAME_A2_LEN. -/
  frameA2Len : Nat
  /-- REPLY_LEN_A4. -/
  replyLenA4 : Nat
  /-- REPLY_LEN_A5. -/
  replyLenA5 : Nat
  /-- STATUS_OFFS. -/
  statusOffs : StatusOffs
  /-- A3_INDEX_OFFSET. -/
  a3IndexOffset : Nat
  /-- PLATFORM_MAP (20_memory.md R67). -/
  platformMap : PlatformMap
deriving DecidableEq, Repr

namespace Config

/-- The first byte of FW_TAG: OPEN (R10; log 7). -/
opaque fwTagHead : Byte
/-- The bytes of FW_TAG after the first; those past byte 63 are dropped, so that 1 ≤ FW_TAG_LEN ≤ 0x40 (R10; log 7). -/
opaque fwTagRest : Bytes
/-- MODEL_NAME: OPEN, 9 bytes (R10; log 7). -/
opaque modelName : Vector Byte 9
/-- MODEL_NAME_OFFSET less 4: OPEN, 4 ≤ off ≤ 40 (R10; log 7). -/
opaque modelNameOffsetLess4 : Fin 37
/-- PLATFORM_MAP: OPEN, a parameter of the platform (93 U23; log 22). -/
opaque platformMap : PlatformMap
/-- The device's answer to draw number `n`, where the state lists none (93 U4 to U6; log 4). -/
opaque freeAnswer (n : Nat) : Answer
/-- The byte that address `a` of buffer `b` holds after reset number `epoch`, until something writes it (93 U1; log 5). -/
opaque unwrittenByte (epoch : Nat) (b : Buf) (a : Nat) : Byte
/-- What free host read number `n` returns while BUSY = 1 (93 U18; log 6). -/
opaque busyRead (n : Nat) : Byte

/-- STATUS_OFFS at its default (R10). -/
def defaultStatusOffs : StatusOffs :=
  { mode := [3], di := [3], ct := [3], part1 := [3], part2 := [5], dt := [3], ad := [3] }

/-- The parameters at their defaults, the OPEN ones given (R10). -/
def defaults (tag name : Bytes) (nameOffset : Nat) (map : PlatformMap) : Params :=
  { fwTag := tag, modelName := name, modelNameOffset := nameOffset, restorePolicy := .preserve
    initialBaud := 115200, initialRts := true, frame80Len := 27, frameA2Len := 68, replyLenA4 := 6, replyLenA5 := 6
    statusOffs := defaultStatusOffs, a3IndexOffset := 3, platformMap := map }

/-- The parameters of the machine right after reset: the defaults, and a free value for each OPEN one (log 7, log 8). -/
def params : Params :=
  defaults (fwTagHead :: fwTagRest.take 63) modelName.toList (4 + modelNameOffsetLess4.val) platformMap

end Config

end Sys2Proof
end

