-- ==== Sys2Proof/Syntax.lean ====
section
/-! DEFINITION. The instructions: one constructor per row of spec/opcode_table.json, in the table's order.
A host command that reads its operand (30_encoding.md R92) carries it; every other row has no operand field. -/

namespace Sys2Proof

/-- The rows of the opcode table. Four formats: host commands (HC, R90 R91), device command bytes (DC, R94 R95), the
byte the device answers with (DR, R96) and firmware packets (FU, R97 to R99). -/
inductive Instr where
  /-- HC 0x01; `nblk` is OPARG, the number of blocks to check. -/
  | edidChecksums (nblk : Byte)
  /-- HC 0x02. -/
  | edidIsvalid
  /-- HC 0x03. -/
  | fwValidate
  /-- HC 0x04; `opcode` is OPARG, placed at frame byte 2. -/
  | fuEncode (opcode : Byte)
  /-- HC 0x05; `request` is OPARG, the request opcode the frame answers. -/
  | fuDecode (request : Byte)
  /-- HC 0x10; `position` is OPARG, encoded as R107. -/
  | select (position : Byte)
  /-- HC 0x11. -/
  | cecConnect
  /-- HC 0x12. -/
  | cecDisconnect
  /-- HC 0x13. -/
  | identify
  /-- HC 0x14. -/
  | readEdid
  /-- HC 0x15. -/
  | writeEdid
  /-- HC 0x20. -/
  | fwUpdate
  /-- DC 0x01. -/
  | devSelDefault
  /-- DC 0x02. -/
  | devSel1
  /-- DC 0x03. -/
  | devSel2
  /-- DC 0x04. -/
  | devSel3
  /-- DC 0x05. -/
  | devNextBlock
  /-- DC 0x07. -/
  | devReadDisplay
  /-- DC 0x08. -/
  | devCecOn
  /-- DC 0x09. -/
  | devCecOff
  /-- DC 0x0A. -/
  | devWrite
  /-- DC 0x0B. -/
  | devIdent
  /-- DC 0x0C. -/
  | devReadDevice
  /-- DR 0x05, received. -/
  | devReady
  /-- FU request 0xFF. -/
  | fuReqEn
  /-- FU request 0x80. -/
  | fuReqMode
  /-- FU request 0x90. -/
  | fuReqDi
  /-- FU request 0xA0. -/
  | fuReqCt
  /-- FU request 0xA2. -/
  | fuReqPart1
  /-- FU request 0xA3. -/
  | fuReqPart2
  /-- FU request 0xA4. -/
  | fuReqDt
  /-- FU request 0xA5. -/
  | fuReqAd
  /-- FU reply 0x7F. -/
  | fuRepEn
  /-- FU reply 0x00. -/
  | fuRepMode
  /-- FU reply 0x10. -/
  | fuRepDi
  /-- FU reply 0x20. -/
  | fuRepCt
  /-- FU reply 0x22. -/
  | fuRepPart1
  /-- FU reply 0x23. -/
  | fuRepPart2
  /-- FU reply 0x24. -/
  | fuRepDt
  /-- FU reply 0x25. -/
  | fuRepAd
deriving DecidableEq, Repr

end Sys2Proof
end

