-- ==== Sys2Proof/WellFormed.lean ====
section
/-! DEFINITION. What makes an instruction or a parameter set well formed: the operand ranges of 30_encoding.md R92 and the
parameter ranges of 00_scope.md R10. An ill-formed operand still decodes and runs: the operation ends with BAD_ARG. -/

namespace Sys2Proof

/-- The operand is one the operation calls legal (R92). -/
def Instr.wellFormed : Instr → Bool
  | .edidChecksums nblk => nblk == 1 || nblk == 2
  | .select position => decide (position.toNat ≤ 4)
  | .fuEncode _ | .fuDecode _ => true
  | .edidIsvalid | .fwValidate | .cecConnect | .cecDisconnect | .identify | .readEdid | .writeEdid | .fwUpdate => true
  | .devSelDefault | .devSel1 | .devSel2 | .devSel3 | .devNextBlock | .devReadDisplay | .devCecOn | .devCecOff => true
  | .devWrite | .devIdent | .devReadDevice | .devReady => true
  | .fuReqEn | .fuReqMode | .fuReqDi | .fuReqCt | .fuReqPart1 | .fuReqPart2 | .fuReqDt | .fuReqAd => true
  | .fuRepEn | .fuRepMode | .fuRepDi | .fuRepCt | .fuRepPart1 | .fuRepPart2 | .fuRepDt | .fuRepAd => true

/-- Every offset `o` of a phase's STATUS_OFFS satisfies 3 ≤ o ≤ (reply length) − 2 (R10). -/
def offsetsOk (offs : List Nat) (replyLen : Nat) : Bool :=
  offs.all fun o => decide (3 ≤ o) && decide (o + 2 ≤ replyLen)

/-- FW_TAG_LEN is 1 to 0x40 (R10). -/
def Params.tagOk (p : Params) : Bool := decide (1 ≤ p.fwTag.length) && decide (p.fwTag.length ≤ 0x40)

/-- MODEL_NAME is 9 bytes and its offset 4 to 40 (R10). -/
def Params.modelOk (p : Params) : Bool :=
  decide (p.modelName.length = Config.modelNameLen) && decide (4 ≤ p.modelNameOffset) && decide (p.modelNameOffset ≤ 40)

/-- The request and reply lengths lie in their ranges (R10). -/
def Params.lengthsOk (p : Params) : Bool :=
  decide (4 ≤ p.frame80Len) && decide (p.frame80Len ≤ Config.frameCap) &&
  decide (68 ≤ p.frameA2Len) && decide (p.frameA2Len ≤ Config.frameCap) &&
  decide (4 ≤ p.replyLenA4) && decide (p.replyLenA4 ≤ Config.frameCap) &&
  decide (4 ≤ p.replyLenA5) && decide (p.replyLenA5 ≤ Config.frameCap)

/-- The status offsets and the 0xA3 index offset lie inside their replies (R10). -/
def Params.offsetsOk (p : Params) : Bool :=
  Sys2Proof.offsetsOk p.statusOffs.mode 5 && Sys2Proof.offsetsOk p.statusOffs.di 50 &&
  Sys2Proof.offsetsOk p.statusOffs.ct 6 && Sys2Proof.offsetsOk p.statusOffs.part1 6 &&
  Sys2Proof.offsetsOk p.statusOffs.part2 8 && Sys2Proof.offsetsOk p.statusOffs.dt p.replyLenA4 &&
  Sys2Proof.offsetsOk p.statusOffs.ad p.replyLenA5 &&
  decide (3 ≤ p.a3IndexOffset) && decide (p.a3IndexOffset ≤ 5)

/-- Every parameter lies in the range R10 gives it. -/
def Params.ok (p : Params) : Bool := p.tagOk && p.modelOk && p.lengthsOk && p.offsetsOk

end Sys2Proof
end

