-- ==== Sys2Proof/Decode.lean ====
section
/-! DEFINITION. The decoder, total on any bytes and refusing by name, and after it the encoder, both written from
30_encoding.md R90 to R99 and spec/opcode_table.json. The encoding spaces are separate: the same byte means one thing
written to CMD, another sent to the device and another received from it. -/

namespace Sys2Proof

/-- The encoding spaces (30_encoding.md, opening; R96 for the byte received during a poll). -/
inductive Space where
  /-- HC: the byte written to CMD, then the byte of ARG latched as OPARG (R90). -/
  | host
  /-- DC: a byte the engine sends to the device (R94). -/
  | device
  /-- DR: a byte a poll expects of the device (R96). -/
  | inbound
  /-- FU: a firmware packet, named by its first three bytes (R97, R98). -/
  | packet
deriving DecidableEq, Repr

/-- Why bytes are no instruction of a space. -/
inductive DecodeError where
  /-- Fewer bytes than the format needs. -/
  | missingByte
  /-- A reserved host code (R93): the operation ends with ILLEGAL_COMMAND(BAD_CMD). -/
  | reservedCommand (code : Byte)
  /-- A device byte no rule emits (R106). -/
  | unusedDeviceByte (b : Byte)
  /-- A received byte other than READY (R96). -/
  | notReady (b : Byte)
  /-- The first two bytes are not 'F', 'U' (R97). -/
  | badMagic (b0 b1 : Byte)
  /-- No phase has this packet opcode (R99). -/
  | unknownPacket (op : Byte)
deriving DecidableEq, Repr

/-- Host operation codes (R91), with the operand byte given to the four that read it (R92). -/
def decodeHost (c arg : Byte) : Except DecodeError Instr :=
  if c = 0x01 then .ok (.edidChecksums arg)
  else if c = 0x02 then .ok .edidIsvalid
  else if c = 0x03 then .ok .fwValidate
  else if c = 0x04 then .ok (.fuEncode arg)
  else if c = 0x05 then .ok (.fuDecode arg)
  else if c = 0x10 then .ok (.select arg)
  else if c = 0x11 then .ok .cecConnect
  else if c = 0x12 then .ok .cecDisconnect
  else if c = 0x13 then .ok .identify
  else if c = 0x14 then .ok .readEdid
  else if c = 0x15 then .ok .writeEdid
  else if c = 0x20 then .ok .fwUpdate
  else .error (.reservedCommand c)

/-- Device command bytes (R95). -/
def decodeDevice (b : Byte) : Except DecodeError Instr :=
  if b = 0x01 then .ok .devSelDefault
  else if b = 0x02 then .ok .devSel1
  else if b = 0x03 then .ok .devSel2
  else if b = 0x04 then .ok .devSel3
  else if b = 0x05 then .ok .devNextBlock
  else if b = 0x07 then .ok .devReadDisplay
  else if b = 0x08 then .ok .devCecOn
  else if b = 0x09 then .ok .devCecOff
  else if b = 0x0A then .ok .devWrite
  else if b = 0x0B then .ok .devIdent
  else if b = 0x0C then .ok .devReadDevice
  else .error (.unusedDeviceByte b)

/-- The byte a poll expects (R96). -/
def decodeInbound (b : Byte) : Except DecodeError Instr :=
  if b = Config.readyByte then .ok .devReady else .error (.notReady b)

/-- Packet opcodes, requests and replies (R99); the two sets are disjoint. -/
def decodePacketOp (op : Byte) : Except DecodeError Instr :=
  if op = 0xFF then .ok .fuReqEn
  else if op = 0x80 then .ok .fuReqMode
  else if op = 0x90 then .ok .fuReqDi
  else if op = 0xA0 then .ok .fuReqCt
  else if op = 0xA2 then .ok .fuReqPart1
  else if op = 0xA3 then .ok .fuReqPart2
  else if op = 0xA4 then .ok .fuReqDt
  else if op = 0xA5 then .ok .fuReqAd
  else if op = 0x7F then .ok .fuRepEn
  else if op = 0x00 then .ok .fuRepMode
  else if op = 0x10 then .ok .fuRepDi
  else if op = 0x20 then .ok .fuRepCt
  else if op = 0x22 then .ok .fuRepPart1
  else if op = 0x23 then .ok .fuRepPart2
  else if op = 0x24 then .ok .fuRepDt
  else if op = 0x25 then .ok .fuRepAd
  else .error (.unknownPacket op)

/-- A firmware packet is named by magic and opcode, its first three bytes; what follows is payload (R97). -/
def decodePacket (b0 b1 op : Byte) : Except DecodeError Instr :=
  if b0 = Config.magic0 ∧ b1 = Config.magic1 then decodePacketOp op else .error (.badMagic b0 b1)

/-- The decoder: which instruction the bytes are in a space. Total; it refuses by name. -/
def decode : Space → Bytes → Except DecodeError Instr
  | .host, c :: arg :: _ => decodeHost c arg
  | .device, b :: _ => decodeDevice b
  | .inbound, b :: _ => decodeInbound b
  | .packet, b0 :: b1 :: op :: _ => decodePacket b0 b1 op
  | _, _ => .error .missingByte

/-- The space an instruction is encoded in: its row's format. -/
def Instr.space : Instr → Space
  | .edidChecksums _ | .edidIsvalid | .fwValidate | .fuEncode _ | .fuDecode _ | .select _ => .host
  | .cecConnect | .cecDisconnect | .identify | .readEdid | .writeEdid | .fwUpdate => .host
  | .devSelDefault | .devSel1 | .devSel2 | .devSel3 | .devNextBlock | .devReadDisplay => .device
  | .devCecOn | .devCecOff | .devWrite | .devIdent | .devReadDevice => .device
  | .devReady => .inbound
  | .fuReqEn | .fuReqMode | .fuReqDi | .fuReqCt | .fuReqPart1 | .fuReqPart2 | .fuReqDt | .fuReqAd => .packet
  | .fuRepEn | .fuRepMode | .fuRepDi | .fuRepCt | .fuRepPart1 | .fuRepPart2 | .fuRepDt | .fuRepAd => .packet

/-- The code word of an instruction (R91, R95, R96, R99). A host command that ignores its operand is written with 0x00 there
(log 26). -/
def encode : Instr → Bytes
  | .edidChecksums nblk => [0x01, nblk]
  | .edidIsvalid => [0x02, 0x00]
  | .fwValidate => [0x03, 0x00]
  | .fuEncode opcode => [0x04, opcode]
  | .fuDecode request => [0x05, request]
  | .select position => [0x10, position]
  | .cecConnect => [0x11, 0x00]
  | .cecDisconnect => [0x12, 0x00]
  | .identify => [0x13, 0x00]
  | .readEdid => [0x14, 0x00]
  | .writeEdid => [0x15, 0x00]
  | .fwUpdate => [0x20, 0x00]
  | .devSelDefault => [0x01]
  | .devSel1 => [0x02]
  | .devSel2 => [0x03]
  | .devSel3 => [0x04]
  | .devNextBlock => [0x05]
  | .devReadDisplay => [0x07]
  | .devCecOn => [0x08]
  | .devCecOff => [0x09]
  | .devWrite => [0x0A]
  | .devIdent => [0x0B]
  | .devReadDevice => [0x0C]
  | .devReady => [0x05]
  | .fuReqEn => [0x46, 0x55, 0xFF]
  | .fuReqMode => [0x46, 0x55, 0x80]
  | .fuReqDi => [0x46, 0x55, 0x90]
  | .fuReqCt => [0x46, 0x55, 0xA0]
  | .fuReqPart1 => [0x46, 0x55, 0xA2]
  | .fuReqPart2 => [0x46, 0x55, 0xA3]
  | .fuReqDt => [0x46, 0x55, 0xA4]
  | .fuReqAd => [0x46, 0x55, 0xA5]
  | .fuRepEn => [0x46, 0x55, 0x7F]
  | .fuRepMode => [0x46, 0x55, 0x00]
  | .fuRepDi => [0x46, 0x55, 0x10]
  | .fuRepCt => [0x46, 0x55, 0x20]
  | .fuRepPart1 => [0x46, 0x55, 0x22]
  | .fuRepPart2 => [0x46, 0x55, 0x23]
  | .fuRepDt => [0x46, 0x55, 0x24]
  | .fuRepAd => [0x46, 0x55, 0x25]

/-- Which space a word of the opcode table is read in: a 24-bit word is a packet's first three bytes; an 8-bit word is a host
command where R91 has that code, else a device byte (log 12). -/
def tableSpace (nbits w : Nat) : Space :=
  if nbits = 24 then .packet
  else
    match decodeHost (BitVec.ofNat 8 w) 0 with
    | .ok _ => .host
    | .error _ =>
      match decodeDevice (BitVec.ofNat 8 w) with
      | .ok _ => .device
      | .error _ => .host

/-- The bytes of a word of the opcode table, as they are stored: 24 bits are one big-endian word (the table's match_note;
log 13); an 8-bit word is followed by an operand byte of zeros. -/
def tableBytes (nbits w : Nat) : Bytes :=
  if nbits = 24 then [BitVec.ofNat 8 (w / 65536), BitVec.ofNat 8 (w / 256), BitVec.ofNat 8 w] else [BitVec.ofNat 8 w, 0]

/-- The instruction the decoder reads from a word of the opcode table, numbered as the table numbers it. -/
def decodeTableWord (nbits w : Nat) : Option Instr :=
  match decode (tableSpace nbits w) (tableBytes nbits w) with
  | .ok i => some i
  | .error _ => none

end Sys2Proof
end

