-- ==== Sys2Proof/Machine/State.lean ====
section
/-! DEFINITION. The state of the engine and of the agents around it, as plain data, and the state right after reset. -/

namespace Sys2Proof.Machine

/-- Why a step of the engine stops the machine. The engine has no trap (60_exceptions.md): its errors are outcomes in RESULT. -/
inductive Fault where
  /-- Raised by a firmware request or reply whose frame, reply or image chunk would leave its buffer. 20_memory.md R61 says the
  engine never computes such an address; it takes parameters outside the ranges of 00_scope.md R10 or CHUNK above 168, so no
  state that meets the invariant of Safety.lean raises it. Safe: the model stops where the spec gives no behaviour (log 15). -/
  | outsideBuffer
deriving DecidableEq, Repr

/-- Why the machine gives an instruction no meaning. -/
inductive Refusal where
  /-- Raised by no arm of `exec`: the name for an instruction without a meaning. Safe. -/
  | notModelled (mnemonic : String)
  /-- Raised by a meaning when the sequencer does not stand at that instruction. The engine performs only what SEQ says
  (10_state.md R24), so no step of a state that meets the invariant asks for one. Safe: the model stops (log 14). -/
  | offSequence
deriving DecidableEq, Repr

/-- Result codes (30_encoding.md R100) an operation ends with. -/
inductive ResultCode where
  | ok | edidInvalid | invalidData | writeError | readError | deviceNotAttached | illegalCommand
deriving DecidableEq, Repr

/-- Detail codes (30_encoding.md R101). -/
inductive DetailCode where
  | none
  | tooManyExtensions | checksumMismatch | imageLength | imageTag | imageWordsum
  | noReply | linkRead | pollExhausted | badMagic | badChecksum | badOpcode
  | linkWrite | rejOpcode | rejStatus | rejIndex | rejModel
  | badCmd | badArg | badLength
deriving DecidableEq, Repr

/-- The eight request/reply phases of FW_UPDATE (30_encoding.md R99; 90_conflicts.md C8). -/
inductive Stage where
  | en | mode | di | ct | part1 | part2 | dt | ad
deriving DecidableEq, Repr

/-- What a READY poll leads to (41_device_commands.md R156, R158). -/
inductive AfterPoll where
  /-- READ_EDID: read block 0. -/
  | readBlock0
  /-- WRITE_EDID: write block 0. -/
  | writeBlock0
  /-- WRITE_EDID: block 0 was taken; write block 1 if there is one. -/
  | wroteBlock0
  /-- WRITE_EDID: block 1 was taken; the end. -/
  | wroteBlock1
deriving DecidableEq, Repr

/-- Where the engine stands inside an operation: the place in the pseudocode of files 40 to 43, with the poll attempt, the
EDID block, the firmware phase, the bytes that the last primitive returned, or the outcome that an abort or a teardown carries
(log 2). -/
inductive Point where
  /-- The first step: operand checks, the attachment check, and the whole of an operation that uses no link. -/
  | start
  /-- Data validation before any link primitive (WRITE_EDID, FW_UPDATE). -/
  | validate
  /-- The operation's device byte is to be sent. -/
  | send
  /-- Sleep(1000) after the byte of SELECT, CEC_CONNECT, CEC_DISCONNECT or IDENTIFY. -/
  | settle
  /-- IDENTIFY reads its one byte. -/
  | receive
  /-- IDENTIFY writes the byte `b` it read to IDBYTE and ends. -/
  | storeId (b : Byte)
  /-- SELECT writes SEL and ends. -/
  | setSel
  /-- Sleep(1000) of a poll attempt; `failed` attempts have failed so far. -/
  | pollSleep (failed : Nat) (aft : AfterPoll)
  /-- The read of a poll attempt. -/
  | pollRead (failed : Nat) (aft : AfterPoll)
  /-- READ_EDID reads 128 bytes: block 1 if `ext`, else block 0. -/
  | readBlock (ext : Bool)
  /-- READ_EDID stores the block `r` it read in EDID_BUF. -/
  | storeBlock (ext : Bool) (r : Bytes)
  /-- READ_EDID sends NEXT_BLOCK. -/
  | sendNext
  /-- Sleep(1000) after NEXT_BLOCK. -/
  | nextSettle
  /-- READ_EDID validates what it read and ends. -/
  | check
  /-- WRITE_EDID writes 128 bytes: block 1 if `ext`, else block 0. -/
  | writeBlock (ext : Bool)
  /-- FW_UPDATE enters update mode: FW_PHASE 2, SAVED_BAUD, SAVED_RTS, ENTERED (43_fw_update.md R220, R223). -/
  | enter
  /-- LinkSetBaud(19200) of R223. -/
  | enterBaud
  /-- LinkSetRTS(0) of R223. -/
  | enterRts
  /-- Sleep(100) of R223. -/
  | enterSleep
  /-- LinkClear() of R223. -/
  | enterClear
  /-- FW_PHASE takes the code of the phase that begins (R220). -/
  | phase (st : Stage)
  /-- The phase's request frame is to be built in FRAME_BUF (R224). -/
  | build (st : Stage)
  /-- The phase's request frame is to be sent (R224). -/
  | request (st : Stage)
  /-- Sleep(1000) after the EN request (R224). -/
  | enSleep
  /-- LinkWaitPending() of R224. -/
  | pending (st : Stage)
  /-- The phase's reply is to be read (R224). -/
  | reply (st : Stage)
  /-- The reply `r` was read; it is to be stored and checked (R224 to R232). -/
  | gotReply (st : Stage) (r : Bytes)
  /-- CHUNK takes the next index (R230). -/
  | nextChunk
  /-- FW_PHASE takes 10 (R233). -/
  | allPassed
  /-- LinkSetBaud of the teardown (R234), which carries the outcome to report. -/
  | tearBaud (r : ResultCode) (d : DetailCode)
  /-- LinkSetRTS of the teardown. -/
  | tearRts (r : ResultCode) (d : DetailCode)
  /-- Sleep(100) of the teardown. -/
  | tearSleep (r : ResultCode) (d : DetailCode)
  /-- LinkClear() of the teardown. -/
  | tearClear (r : ResultCode) (d : DetailCode)
  /-- The ending step (00_scope.md R15), with the outcome to report. -/
  | ending (r : ResultCode) (d : DetailCode)
deriving DecidableEq, Repr

/-- SEQ, the sequencer position (10_state.md R24): IDLE, or the operation code in progress, the number `k` of primitives it
has performed, and where in its text it stands (log 2). -/
inductive Seq where
  | idle
  | busy (op : Byte) (k : Nat) (pt : Point)
deriving DecidableEq, Repr

/-- The events of the link history (20_memory.md R71). -/
inductive LinkEvent where
  /-- TX(s, outcome). -/
  | tx (s : Bytes) (ok : Bool)
  /-- RXB(result), `none` where nothing was pending. -/
  | rxb (result : Option Byte)
  /-- RXN(n, result), `none` for ioerr. -/
  | rxn (n : Nat) (result : Option Bytes)
  /-- PEND. -/
  | pend
  /-- CLR. -/
  | clr
  /-- BAUD(r, outcome). -/
  | baud (r : BitVec 32) (ok : Bool)
  /-- RTS(l). -/
  | rts (level : Bool)
  /-- SLEEP(ms). -/
  | sleep (ms : Nat)
deriving DecidableEq, Repr

/-- A move of one agent, as the agenda lists it (log 3): the host's accesses (30_encoding.md R109), the device's bytes
(20_memory.md R70), the platform's inputs (10_state.md R31; 70_reset_and_hazards.md R290, R294), and the engine's step. -/
inductive Event where
  /-- The engine takes one step. -/
  | engine
  /-- Host write of `v` to register offset `off`. -/
  | write (off v : Byte)
  /-- Host read of register offset `off`. -/
  | read (off : Byte)
  /-- Host write of `v` to address `a` of buffer `b`. -/
  | bufWrite (b : Buf) (a : Nat) (v : Byte)
  /-- Host read of address `a` of buffer `b`. -/
  | bufRead (b : Buf) (a : Nat)
  /-- Host write of `v` to address `addr` of the host's own address map (20_memory.md R67; log 22). -/
  | busWrite (addr : Nat) (v : Byte)
  /-- Host read of address `addr` of the host's own address map. -/
  | busRead (addr : Nat)
  /-- Host reads STATUS until DONE = 1, the engine moving between two reads (log 18). -/
  | waitDone
  /-- The device appends bytes to the receive queue. -/
  | device (bs : Bytes)
  /-- The platform drives link_attached. -/
  | attach (level : Bool)
  /-- The platform configures the transport itself (R294). -/
  | configure (baud : BitVec 32) (rts : Bool)
  /-- Reset; `sent` bytes of a write in progress have left (R292; log 17). -/
  | reset (sent : Nat)
deriving DecidableEq, Repr

/-- A buffer's contents: the bytes written since reset, addresses strictly rising (log 5). -/
abbrev Mem := List Host.Cell

/-- The canonical form of a buffer of `size` bytes. An unlisted address has no stored value, so no entry can equal it. -/
abbrev Mem.wf (size : Nat) (m : Mem) : Prop :=
  m.Pairwise (fun c d => c.1 < d.1) ∧ ∀ c ∈ m, c.1 < size

/-- The host registers (10_state.md R23), each at the width of the bits it uses. STATUS.ATTACHED is `Link.attached`. -/
structure Regs where
  /-- CMD (R25). -/
  cmd : Byte
  /-- ARG (R26). -/
  arg : Byte
  /-- STATUS.BUSY (R28). -/
  busy : Bool
  /-- STATUS.DONE (R29). -/
  done : Bool
  /-- STATUS.OVR (R30). -/
  ovr : Bool
  /-- RESULT (R32). -/
  result : Byte
  /-- DETAIL (R33). -/
  detail : Byte
  /-- SEL bits 2:0 (R34). -/
  sel : BitVec 3
  /-- IDBYTE (R35). -/
  idbyte : Byte
  /-- CKMASK bits 1:0 (R36). -/
  ckmask : BitVec 2
  /-- FOUND0 (R37). -/
  found0 : Byte
  /-- EXP0 (R37). -/
  exp0 : Byte
  /-- FOUND1 (R37). -/
  found1 : Byte
  /-- EXP1 (R37). -/
  exp1 : Byte
  /-- FW_PHASE bits 3:0 (R38). -/
  fwPhase : BitVec 4
  /-- CHUNK_HI, CHUNK_LO (R39). -/
  chunk : BitVec 16
  /-- RTS bit 0 (R40). -/
  rts : Bool
  /-- BAUD3..BAUD0 (R41). -/
  linkBaud : BitVec 32
  /-- FU_LEN_HI, FU_LEN_LO (R42). -/
  fuLen : BitVec 16
  /-- FW_LEN_HI, FW_LEN_LO (R43). -/
  fwLen : BitVec 16
deriving DecidableEq, Repr

/-- The internal registers (10_state.md R45). -/
structure Internal where
  /-- OPARG. -/
  oparg : Byte
  /-- SAVED_BAUD. -/
  savedBaud : BitVec 32
  /-- SAVED_RTS. -/
  savedRts : Bool
  /-- ENTERED. -/
  entered : Bool
deriving DecidableEq, Repr

/-- The five buffers (10_state.md R46), and which reset's draws their unwritten bytes hold (log 5). -/
structure Buffers where
  edid : Mem
  fw : Mem
  frame : Mem
  rx : Mem
  info : Mem
  /-- The model's own: how many resets have been applied since the first. -/
  epoch : Nat
deriving DecidableEq, Repr

/-- The link and its environment (20_memory.md R70, R71; 10_state.md R31; 70_reset_and_hazards.md R305). -/
structure Link where
  /-- The input link_attached. -/
  attached : Bool
  /-- RQ: bytes received and not yet read, oldest first. -/
  rq : Bytes
  /-- TL: bytes handed to the transport, oldest first. -/
  tl : Bytes
  /-- The link history, oldest first. -/
  history : List LinkEvent
  /-- The rate the transport holds (not LINK_BAUD: R305). -/
  lineBaud : BitVec 32
  /-- The RTS level the transport holds (not the register RTS: R305). -/
  lineRts : Bool
deriving DecidableEq, Repr

/-- The model's own fields for the other agents (log 3, 4, 6, 19). -/
structure Env where
  /-- The coming moves, first first; when it is empty the engine moves. -/
  agenda : List Event
  /-- The device's answers to the coming draws, first first. -/
  answers : List Answer
  /-- How many draws have been answered. -/
  drawCount : Nat
  /-- What the host's reads have returned, oldest first. -/
  hostReads : Bytes
  /-- How many free values host reads have drawn while BUSY = 1. -/
  freeReads : Nat
deriving DecidableEq, Repr

/-- The whole state. -/
structure State where
  reg : Regs
  int : Internal
  seq : Seq
  buf : Buffers
  link : Link
  env : Env
  /-- The parameters (00_scope.md R10; 20_memory.md R67); no step changes them. -/
  params : Params
deriving DecidableEq, Repr

/-- The host registers at reset (10_state.md R23). -/
def Regs.atReset (p : Params) : Regs :=
  { cmd := 0, arg := 0, busy := false, done := false, ovr := false, result := 0xFF, detail := 0, sel := 0, idbyte := 0
    ckmask := 0, found0 := 0, exp0 := 0, found1 := 0, exp1 := 0, fwPhase := 0, chunk := 0, rts := p.initialRts
    linkBaud := p.initialBaud, fuLen := 0, fwLen := 0 }

/-- The internal registers at reset (10_state.md R45). -/
def Internal.atReset : Internal := { oparg := 0, savedBaud := 0, savedRts := false, entered := false }

/-- The buffers after reset number `epoch`: nothing listed, every byte unspecified (70_reset_and_hazards.md R291). -/
def Buffers.atReset (epoch : Nat) : Buffers := { edid := [], fw := [], frame := [], rx := [], info := [], epoch := epoch }

/-- The link before anything happened on it, attached (95_test_vectors.md's start state; log 9) and configured as
70_reset_and_hazards.md R294 requires (log 10). -/
def Link.initial (p : Params) : Link :=
  { attached := true, rq := [], tl := [], history := [], lineBaud := p.initialBaud, lineRts := p.initialRts }

/-- The other agents before anything happened (log 3, 4, 6, 19). -/
def Env.initial : Env := { agenda := [], answers := [], drawCount := 0, hostReads := [], freeReads := 0 }

/-- The machine right after reset (70_reset_and_hazards.md R290, R291, R293) with parameters `p`. -/
def State.resetWith (p : Params) : State :=
  { reg := Regs.atReset p, int := Internal.atReset, seq := .idle, buf := Buffers.atReset 0, link := Link.initial p
    env := Env.initial, params := p }

/-- The machine right after reset. -/
def State.reset : State := State.resetWith Config.params

end Sys2Proof.Machine
end

