-- ==== Sys2Proof/Machine/Ops.lean ====
section
/-! DEFINITION. The named operations over buffers and the sequencer, the link primitives (20_memory.md R72 to R79), and the
abort, `raise`, with the ending step beside it (00_scope.md R15; 60_exceptions.md R266). A primitive and what follows it are
different steps (R8; log 1). -/

namespace Sys2Proof.Machine

/-! ## Buffers -/

/-- Bytes of a buffer (10_state.md R46, 20_memory.md R60). -/
def bufSize : Buf → Nat
  | .edid => 256
  | .fw => Config.fwImageLen
  | .frame => Config.frameCap
  | .rx => Config.frameCap
  | .info => Config.infoLen

/-- The byte written last at an address, if one was. -/
def Mem.lookup : Mem → Nat → Option Byte
  | [], _ => none
  | (b, w) :: t, a => if a = b then some w else Mem.lookup t a

/-- A write; the addresses stay strictly rising. -/
def Mem.write : Mem → Nat → Byte → Mem
  | [], a, v => [(a, v)]
  | (b, w) :: t, a, v =>
    if a < b then (a, v) :: (b, w) :: t else if a = b then (a, v) :: t else (b, w) :: Mem.write t a v

/-- The contents of one buffer. -/
def Buffers.mem (m : Buffers) : Buf → Mem
  | .edid => m.edid
  | .fw => m.fw
  | .frame => m.frame
  | .rx => m.rx
  | .info => m.info

/-- One buffer's contents replaced. -/
def Buffers.setMem (m : Buffers) : Buf → Mem → Buffers
  | .edid, x => { m with edid := x }
  | .fw, x => { m with fw := x }
  | .frame, x => { m with frame := x }
  | .rx, x => { m with rx := x }
  | .info, x => { m with info := x }

/-- `SPACE[a]` (00_scope.md R13): the last byte written there since reset, else the unspecified, stable byte of 20_memory.md
R62 (log 5). This is the one definition of what an unlisted address reads as. -/
def Buffers.byteAt (m : Buffers) (b : Buf) (a : Nat) : Byte :=
  match Mem.lookup (m.mem b) a with
  | some v => v
  | none => Config.unwrittenByte m.epoch b a

/-- One byte written; an address at or beyond the size changes nothing (R61). -/
def Buffers.setByte (m : Buffers) (b : Buf) (a : Nat) (v : Byte) : Buffers :=
  if a < bufSize b then m.setMem b (Mem.write (m.mem b) a v) else m

/-- `MemRead(SPACE, a, n)` (00_scope.md R13). -/
def Buffers.bytes (m : Buffers) (b : Buf) (a n : Nat) : Bytes := (List.range n).map fun i => m.byteAt b (a + i)

/-- `MemWrite(SPACE, a, len(s), s)` (00_scope.md R13). -/
def Buffers.setBytes (m : Buffers) (b : Buf) (a : Nat) : Bytes → Buffers
  | [] => m
  | v :: t => (m.setByte b a v).setBytes b (a + 1) t

/-- One byte of a buffer of the state. -/
def State.byteAt (s : State) (b : Buf) (a : Nat) : Byte := s.buf.byteAt b a

/-- `n` bytes of a buffer of the state. -/
def State.bytes (s : State) (b : Buf) (a n : Nat) : Bytes := s.buf.bytes b a n

/-- Bytes written to a buffer of the state. -/
def State.setBytes (s : State) (b : Buf) (a : Nat) (bs : Bytes) : State := { s with buf := s.buf.setBytes b a bs }

/-! ## The sequencer -/

/-- One more primitive has been performed (10_state.md R24). -/
def Seq.tick : Seq → Seq
  | .idle => .idle
  | .busy op k p => .busy op (k + 1) p

/-- The engine stands at another place of the same operation. -/
def Seq.goto : Seq → Point → Seq
  | .idle, _ => .idle
  | .busy op k _, p => .busy op k p

/-- The operation in progress is FW_UPDATE. -/
def Seq.isUpdate : Seq → Bool
  | .idle => false
  | .busy op _ _ => op == 0x20

/-- The engine goes on at `p`. -/
def State.goto (s : State) (p : Point) : State := { s with seq := s.seq.goto p }

/-- A link primitive was performed: its event joins the history (20_memory.md R71) and `k` grows by one (10_state.md R24). -/
def State.record (s : State) (e : LinkEvent) : State :=
  { s with link.history := s.link.history ++ [e], seq := s.seq.tick }

/-! ## Draws of the device (93 U4 to U6; log 4) -/

/-- The device's answer to the draw that comes next. -/
def State.answer (s : State) : Answer :=
  match s.env.answers with
  | a :: _ => a
  | [] => Config.freeAnswer s.env.drawCount

/-- The draw has been answered. -/
def State.drawn (s : State) : State :=
  { s with env.answers := s.env.answers.tail, env.drawCount := s.env.drawCount + 1 }

/-! ## Link primitives -/

/-- `LinkWrite(bs)` (R72): all of `bs` joins the transmit log, or on `ioerr` some prefix of it. -/
def linkWrite (bs : Bytes) (s : State) : State :=
  { s.drawn with link.tl := s.link.tl ++ (if s.answer.fails then bs.take s.answer.count else bs) }.record
    (.tx bs (!s.answer.fails))

/-- `LinkReadByte()` (R73), non-blocking; its result is the head of the receive queue, if there is one. -/
def linkReadByte (s : State) : State :=
  { s with link.rq := s.link.rq.tail }.record (.rxb s.link.rq.head?)

/-- The state after `LinkReadBytes(n)` answered `ioerr` (R74): some prefix of the queue is gone. -/
def linkReadFailed (n : Nat) (s : State) : State :=
  { s.drawn with link.rq := s.link.rq.drop s.answer.count }.record (.rxn n none)

/-- The state after `LinkReadBytes(n)` returned the `n` oldest bytes of the queue (R74). -/
def linkReadDone (n : Nat) (s : State) : State :=
  { s.drawn with link.rq := s.link.rq.drop n }.record (.rxn n (some (s.link.rq.take n)))

/-- `LinkWaitPending()` (R75) with what follows; while the queue is empty the engine holds and nothing changes. -/
def linkWaitPending (next : State → State) (s : State) : State :=
  if s.link.rq = [] then s else next (s.record .pend)

/-- `LinkClear()` (R76). -/
def linkClear (s : State) : State := { s with link.rq := [] }.record .clr

/-- `LinkSetBaud(r)` (R77): on `fail` nothing changes; on `ok` LINK_BAUD and the transport take the rate. -/
def linkSetBaud (r : BitVec 32) (s : State) : State :=
  if s.answer.fails then s.drawn.record (.baud r false)
  else { s.drawn with reg.linkBaud := r, link.lineBaud := r }.record (.baud r true)

/-- `LinkSetRTS(l)` (R78). -/
def linkSetRts (level : Bool) (s : State) : State :=
  { s with reg.rts := level, link.lineRts := level }.record (.rts level)

/-- `Sleep(ms)` (R79). -/
def sleep (ms : Nat) (s : State) : State := s.record (.sleep ms)

/-! ## Ending and aborting an operation -/

/-- Result codes (30_encoding.md R100). -/
def resultByte : ResultCode → Byte
  | .ok => 0x00
  | .edidInvalid => 0x01
  | .invalidData => 0x10
  | .writeError => 0x20
  | .readError => 0x30
  | .deviceNotAttached => 0x40
  | .illegalCommand => 0x50

/-- Detail codes (30_encoding.md R101). -/
def detailByte : DetailCode → Byte
  | .none => 0x00
  | .tooManyExtensions => 0x01
  | .checksumMismatch => 0x02
  | .imageLength => 0x03
  | .imageTag => 0x04
  | .imageWordsum => 0x05
  | .noReply => 0x10
  | .linkRead => 0x11
  | .pollExhausted => 0x12
  | .badMagic => 0x13
  | .badChecksum => 0x14
  | .badOpcode => 0x15
  | .linkWrite => 0x20
  | .rejOpcode => 0x21
  | .rejStatus => 0x22
  | .rejIndex => 0x23
  | .rejModel => 0x24
  | .badCmd => 0x30
  | .badArg => 0x31
  | .badLength => 0x32

/-- `finish(RES, DET)` (00_scope.md R15): the ending step. There is no return from an error beside it (60_exceptions.md R269). -/
def finish (r : ResultCode) (d : DetailCode) (s : State) : State :=
  { s with reg.result := resultByte r, reg.detail := detailByte d, reg.busy := false, reg.done := true, seq := .idle }

/-- `raise E(D)` (60_exceptions.md R266): FW_UPDATE with ENTERED = 1 first runs its teardown, which carries the outcome to the
ending step; every other operation ends at once. -/
def raise (r : ResultCode) (d : DetailCode) (s : State) : State :=
  if s.seq.isUpdate && s.int.entered then s.goto (.tearBaud r d) else finish r d s

/-- The same abort as the consequence of a primitive that was this step: the teardown or the ending step is the next one. -/
def raiseNext (r : ResultCode) (d : DetailCode) (s : State) : State :=
  s.goto (if s.seq.isUpdate && s.int.entered then .tearBaud r d else .ending r d)

/-- A `LinkWrite` at a call site: `ioerr` raises WRITE_ERROR(LINK_WRITE) (R72), `ok` goes on at `next`. -/
def transmit (bs : Bytes) (next : Point) (s : State) : State :=
  if s.answer.fails then raiseNext .writeError .linkWrite (linkWrite bs s) else (linkWrite bs s).goto next

/-- A `LinkReadBytes` at a call site (R74): `ioerr` raises READ_ERROR(LINK_READ); with `n` bytes the engine goes on at `next` of
them; with too few and no ioerr it holds, and the only trace is that the device answered (log 16). -/
def receiveBytes (n : Nat) (next : Bytes → Point) (s : State) : State :=
  if s.answer.fails then raiseNext .readError .linkRead (linkReadFailed n s)
  else if n ≤ s.link.rq.length then (linkReadDone n s).goto (next (s.link.rq.take n))
  else s.drawn

end Sys2Proof.Machine
end

