-- ==== Sys2Proof/Machine/Flags.lean ====
section
/-! DEFINITION. Every computed check and flag: the checksums (00_scope.md R17), the STATUS byte (10_state.md R27), the EDID
checksum evaluation and validity (40_edid_model.md R132, R134), and the firmware reply and image checks (42_fu_framer.md
R192, R197, R199; 43_fw_update.md R239). The engine computes no condition code (10_state.md R27). -/

namespace Sys2Proof.Machine

/-- `sum(s)` (00_scope.md R12), not reduced. -/
def byteSum (bs : Bytes) : Nat := (bs.map BitVec.toNat).sum

/-- `be16(hi, lo)` (00_scope.md R12). -/
def be16 (hi lo : Byte) : Nat := hi.toNat * 256 + lo.toNat

/-- `fu_ck(s)` (42_fu_framer.md R190): 0x00 where the sum is 0 mod 256 (90_conflicts.md C4). -/
def fuCk (bs : Bytes) : Byte := BitVec.ofNat 8 ((256 - byteSum bs % 256) % 256)

/-- `fu_ck_ok(s)` (42_fu_framer.md R192): the last byte is the checksum of those before it. -/
def fuCkOk (bs : Bytes) : Bool := bs.getLast? == some (fuCk bs.dropLast)

/-- `edid_sum_ok(blk)` (40_edid_model.md R130). -/
def edidSumOk (blk : Bytes) : Bool := byteSum blk % 256 == 0

/-- The sum of the big-endian 16-bit words of a byte string, not reduced (log 27 for a byte left over). -/
def wordTotal : Bytes → Nat
  | hi :: lo :: t => be16 hi lo + wordTotal t
  | _ => 0

/-- `wordsum(s)` (42_fu_framer.md R196). -/
def wordsum (bs : Bytes) : Nat := wordTotal bs % 65536

/-- The byte STATUS reads as (10_state.md R27); bits 7:4 read 0. -/
def statusByte (s : State) : Byte :=
  0#4 ++ BitVec.ofBool s.link.attached ++ BitVec.ofBool s.reg.ovr ++ BitVec.ofBool s.reg.done ++ BitVec.ofBool s.reg.busy

/-! ## EDID -/

/-- Block `b` of EDID_BUF (40_edid_model.md R130). -/
def edidBlock (s : State) (b : Nat) : Bytes := s.bytes .edid (Config.edidBlockLen * b) Config.edidBlockLen

/-- EDID[0x7E], the extension count (30_encoding.md R102). -/
def extCount (s : State) : Nat := (s.byteAt .edid Config.edidExtOffset).toNat

/-- `found` of a block (R132): its stored checksum byte, byte 127. -/
def foundByte (s : State) (b : Nat) : Byte := s.byteAt .edid (Config.edidBlockLen * b + 127)

/-- `expected` of a block (R132): the byte that would make its sum 0 mod 256. -/
def expectedByte (s : State) (b : Nat) : Byte := fuCk ((edidBlock s b).take 127)

/-- Block `b` fails its sum check (R130). -/
def blockFails (s : State) (b : Nat) : Bool := !edidSumOk (edidBlock s b)

/-- The mask `ck_eval(nblk)` returns (R132): bit b is 1 when block b < nblk fails. -/
def ckMask (nblk : Nat) (s : State) : BitVec 2 :=
  BitVec.ofBool (decide (1 < nblk) && blockFails s 1) ++ BitVec.ofBool (decide (0 < nblk) && blockFails s 0)

/-- The registers `ck_eval(nblk)` writes (R132); a block that is not checked records 0 and 0. -/
def ckEval (nblk : Nat) (s : State) : State :=
  { s with
    reg.ckmask := ckMask nblk s
    reg.found0 := if 0 < nblk then foundByte s 0 else 0
    reg.exp0 := if 0 < nblk then expectedByte s 0 else 0
    reg.found1 := if 1 < nblk then foundByte s 1 else 0
    reg.exp1 := if 1 < nblk then expectedByte s 1 else 0 }

/-- The registers `is_valid()` writes (R134). -/
def validEval (s : State) : State :=
  if extCount s + 1 > Config.edidMaxBlocks then
    { s with reg.ckmask := 0, reg.found0 := 0, reg.exp0 := 0, reg.found1 := 0, reg.exp1 := 0 }
  else ckEval (1 + extCount s) s

/-- What `is_valid()` returns (R134): `none` for OK. -/
def validResult (s : State) : Option DetailCode :=
  if extCount s + 1 > Config.edidMaxBlocks then some .tooManyExtensions
  else if ckMask (1 + extCount s) s = 0 then none else some .checksumMismatch

/-! ## Firmware image and replies -/

/-- `image_check()` (42_fu_framer.md R197): `none` for OK. With a wrong length no FW_BUF byte is read. -/
def imageCheck (s : State) : Option DetailCode :=
  if s.reg.fwLen.toNat ≠ Config.fwImageLen then some .imageLength
  else if s.bytes .fw 0 s.params.fwTag.length ≠ s.params.fwTag then some .imageTag
  else if wordsum (s.bytes .fw 0 0x2A80) ≠ be16 (s.byteAt .fw 0x2A80) (s.byteAt .fw 0x2A81) then some .imageWordsum
  else none

/-- The reply's first two bytes are the magic (R199). -/
def magicOk (r : Bytes) : Bool := r[0]? == some Config.magic0 && r[1]? == some Config.magic1

/-- The reply's opcode is the request's XOR 0x80 (30_encoding.md R98). -/
def opcodeOk (r : Bytes) (reqop : Byte) : Bool := r[2]? == some (reqop ^^^ Config.fuReplyXor)

/-- `fu_reply_check(s, reqop, enter)` (R199): `none` for OK; the first check that fails decides. -/
def fuReplyCheck (r : Bytes) (reqop : Byte) (enter : Bool) : Option (ResultCode × DetailCode) :=
  if magicOk r = false then some (.readError, .badMagic)
  else if fuCkOk r = false then some (.readError, .badChecksum)
  else if opcodeOk r reqop = false then
    if enter then some (.readError, .badOpcode) else some (.writeError, .rejOpcode)
  else none

/-- Every listed offset of the reply holds 0x00 (43_fw_update.md R239). -/
def zeroAt (r : Bytes) (offs : List Nat) : Bool := offs.all fun o => r[o]? == some 0

/-- The model-name field is MODEL_NAME, byte for byte (R227). -/
def modelOk (r : Bytes) (p : Params) : Bool := (r.drop p.modelNameOffset).take Config.modelNameLen == p.modelName

/-- The echoed chunk index is the one sent (R230). -/
def indexOk (r : Bytes) (p : Params) (chunk : BitVec 16) : Bool :=
  r[p.a3IndexOffset]? == some (chunk.extractLsb' 8 8) && r[p.a3IndexOffset + 1]? == some (chunk.extractLsb' 0 8)

end Sys2Proof.Machine
end

