-- ==== Sys2Proof/Machine/Operands.lean ====
section
/-! DEFINITION. Every operand form: the device byte an operation sends (30_encoding.md R95, R107), the fields of the firmware
packets (R97 to R99, R105), what the sequencer position makes the engine perform next (`fetch`), and the host register map
(10_state.md R23). -/

namespace Sys2Proof.Machine

/-! ## Host operation codes (30_encoding.md R91) -/

abbrev opSelect : Byte := 0x10
abbrev opCecConnect : Byte := 0x11
abbrev opCecDisconnect : Byte := 0x12
abbrev opIdentify : Byte := 0x13
abbrev opReadEdid : Byte := 0x14
abbrev opWriteEdid : Byte := 0x15
abbrev opFwUpdate : Byte := 0x20

/-! ## Device commands -/

/-- The device byte an operation sends first (R95): SELECT `0x01 + p` (R107), READ_EDID 0x07 when SEL = DISPLAY, else 0x0C
(41_device_commands.md R156). -/
def deviceByte (op : Byte) (s : State) : Byte :=
  if op = opSelect then 0x01 + s.int.oparg
  else if op = opCecConnect then 0x08
  else if op = opCecDisconnect then 0x09
  else if op = opIdentify then 0x0B
  else if op = opReadEdid then (if s.reg.sel = 4 then 0x07 else 0x0C)
  else 0x0A

/-- Where an operation goes on once its device byte is sent (41_device_commands.md R152 to R158). -/
def afterSend (op : Byte) : Point :=
  if op = opReadEdid then .pollSleep 0 .readBlock0
  else if op = opWriteEdid then .pollSleep 0 .writeBlock0
  else .settle

/-- Where READ_EDID or WRITE_EDID goes on after a READY poll (41_device_commands.md R156, R158). -/
def afterReady (aft : AfterPoll) (s : State) : Point :=
  match aft with
  | .readBlock0 => .readBlock false
  | .writeBlock0 => .writeBlock false
  | .wroteBlock0 => if extCount s = 1 then .writeBlock true else .ending .ok .none
  | .wroteBlock1 => .ending .ok .none

/-! ## Firmware packets -/

/-- Request opcode of a phase (R99). -/
def Stage.reqOp : Stage → Byte
  | .en => 0xFF
  | .mode => 0x80
  | .di => 0x90
  | .ct => 0xA0
  | .part1 => 0xA2
  | .part2 => 0xA3
  | .dt => 0xA4
  | .ad => 0xA5

/-- Reply opcode of a phase: request XOR 0x80 (R98). -/
def Stage.repOp (st : Stage) : Byte := st.reqOp ^^^ Config.fuReplyXor

/-- FW_PHASE code of a phase (R108). -/
def Stage.phaseCode : Stage → BitVec 4
  | .en => 2
  | .mode => 3
  | .di => 4
  | .ct => 5
  | .part1 => 6
  | .part2 => 7
  | .dt => 8
  | .ad => 9

/-- Total bytes of a phase's request (R99). -/
def Stage.reqLen (p : Params) : Stage → Nat
  | .en => 6
  | .mode => p.frame80Len
  | .di => 6
  | .ct => 6
  | .part1 => p.frameA2Len
  | .part2 => 70
  | .dt => 6
  | .ad => 7

/-- Bytes of a phase's reply (R99). -/
def Stage.repLen (p : Params) : Stage → Nat
  | .en => 32
  | .mode => 5
  | .di => Config.infoLen
  | .ct => 6
  | .part1 => 6
  | .part2 => 8
  | .dt => p.replyLenA4
  | .ad => p.replyLenA5

/-- STATUS_OFFS of a phase (00_scope.md R10); EN checks none (43_fw_update.md R225). -/
def Stage.statusOffs (p : Params) : Stage → List Nat
  | .en => []
  | .mode => p.statusOffs.mode
  | .di => p.statusOffs.di
  | .ct => p.statusOffs.ct
  | .part1 => p.statusOffs.part1
  | .part2 => p.statusOffs.part2
  | .dt => p.statusOffs.dt
  | .ad => p.statusOffs.ad

/-- `n` bytes of 0x00 (00_scope.md R12). -/
def zeros (n : Nat) : Bytes := List.replicate n 0

/-- Chunk `i` of part 2: FW[0x40 + 64i .. 0x40 + 64i + 63] (R105). -/
def chunkBytes (s : State) (i : Nat) : Bytes :=
  s.bytes .fw (Config.fwPart1Len + Config.fwChunkLen * i) Config.fwChunkLen

/-- Request payload of a phase (R99; 43_fw_update.md R225 to R232). -/
def payload (s : State) : Stage → Bytes
  | .en => [0x45, 0x4E]
  | .mode => zeros (s.params.frame80Len - 4)
  | .di => [0x44, 0x49]
  | .ct => [0x43, 0x54]
  | .part1 => s.bytes .fw 0 Config.fwPart1Len ++ zeros (s.params.frameA2Len - 68)
  | .part2 => [s.reg.chunk.extractLsb' 8 8, s.reg.chunk.extractLsb' 0 8] ++ chunkBytes s s.reg.chunk.toNat
  | .dt => [0x44, 0x54]
  | .ad => [0xFF, 0x41, 0x44]

/-- A frame before its checksum: magic, opcode, payload (42_fu_framer.md R191). -/
def frameHead (op : Byte) (p : Bytes) : Bytes := [Config.magic0, Config.magic1, op] ++ p

/-- `fu_frame(op, p)` (42_fu_framer.md R191). -/
def fuFrame (op : Byte) (p : Bytes) : Bytes := frameHead op p ++ [fuCk (frameHead op p)]

/-- The request frame of a phase. -/
def requestFrame (s : State) (st : Stage) : Bytes := fuFrame st.reqOp (payload s st)

/-- The request fits FRAME_BUF, and the chunk it carries lies in the image (20_memory.md R61; log 15). -/
def requestFits (s : State) (st : Stage) : Bool :=
  decide (st.reqLen s.params ≤ Config.frameCap) && (st != .part2 || decide (s.reg.chunk.toNat < Config.fwNChunks))

/-- The reply fits RX_BUF (20_memory.md R61; log 15). -/
def replyFits (s : State) (st : Stage) : Bool := decide (st.repLen s.params ≤ Config.frameCap)

/-- The bytes read are a whole reply, which fits RX_BUF (log 15). -/
def gotFits (s : State) (st : Stage) (r : Bytes) : Bool := decide (r.length = st.repLen s.params) && replyFits s st

/-- Where FW_UPDATE goes on once a phase's request is sent (43_fw_update.md R224): only EN sleeps first. -/
def afterRequest (st : Stage) : Point := if st = .en then .enSleep else .pending st

/-- Where FW_UPDATE goes on once a phase has passed (43_fw_update.md R220, R230, R233). -/
def afterPhase (s : State) : Stage → Point
  | .en => .phase .mode
  | .mode => .phase .di
  | .di => .phase .ct
  | .ct => .phase .part1
  | .part1 => .phase .part2
  | .part2 => if s.reg.chunk.toNat + 1 < Config.fwNChunks then .nextChunk else .phase .dt
  | .dt => .phase .ad
  | .ad => .allPassed

/-! ## What the engine performs next -/

/-- The code word at the sequencer position (10_state.md R24): at a transmission the device byte or the packet, also where the
packet is built; at a poll's read READY; at a reply, read or to be checked, the packet expected (log 25); anywhere else the
host command with its latched operand (log 26). -/
def fetch (s : State) : Option (Space × Bytes) :=
  match s.seq with
  | .idle => none
  | .busy op _ .send => some (.device, [deviceByte op s])
  | .busy _ _ .sendNext => some (.device, [0x05])
  | .busy _ _ (.pollRead _ _) => some (.inbound, [Config.readyByte])
  | .busy _ _ (.build st) | .busy _ _ (.request st) => some (.packet, [Config.magic0, Config.magic1, st.reqOp])
  | .busy _ _ (.reply st) | .busy _ _ (.gotReply st _) => some (.packet, [Config.magic0, Config.magic1, st.repOp])
  | .busy op _ _ => some (.host, [op, s.int.oparg])

/-! ## The host register map -/

/-- The registers of 10_state.md R23, one per offset. -/
inductive Reg where
  | cmd | arg | status | result | detail | sel | idbyte | ckmask | found0 | exp0 | found1 | exp1 | fwPhase
  | chunkHi | chunkLo | rts | baud3 | baud2 | baud1 | baud0 | fuLenHi | fuLenLo | fwLenHi | fwLenLo
deriving DecidableEq, Repr

/-- The registers in the order of their offsets, from 0x00 (R23). -/
def regMap : List Reg :=
  [.cmd, .arg, .status, .result, .detail, .sel, .idbyte, .ckmask, .found0, .exp0, .found1, .exp1, .fwPhase, .chunkHi,
    .chunkLo, .rts, .baud3, .baud2, .baud1, .baud0, .fuLenHi, .fuLenLo, .fwLenHi, .fwLenLo]

/-- The register at an offset; the rest are reserved (R44). -/
def regAt (off : Byte) : Option Reg := regMap[off.toNat]?

/-- The byte a register holds (R23 to R43), unused bits 0. -/
def regByte (s : State) : Reg → Byte
  | .cmd => s.reg.cmd
  | .arg => s.reg.arg
  | .status => statusByte s
  | .result => s.reg.result
  | .detail => s.reg.detail
  | .sel => 0#5 ++ s.reg.sel
  | .idbyte => s.reg.idbyte
  | .ckmask => 0#6 ++ s.reg.ckmask
  | .found0 => s.reg.found0
  | .exp0 => s.reg.exp0
  | .found1 => s.reg.found1
  | .exp1 => s.reg.exp1
  | .fwPhase => 0#4 ++ s.reg.fwPhase
  | .chunkHi => s.reg.chunk.extractLsb' 8 8
  | .chunkLo => s.reg.chunk.extractLsb' 0 8
  | .rts => 0#7 ++ BitVec.ofBool s.reg.rts
  | .baud3 => s.reg.linkBaud.extractLsb' 24 8
  | .baud2 => s.reg.linkBaud.extractLsb' 16 8
  | .baud1 => s.reg.linkBaud.extractLsb' 8 8
  | .baud0 => s.reg.linkBaud.extractLsb' 0 8
  | .fuLenHi => s.reg.fuLen.extractLsb' 8 8
  | .fuLenLo => s.reg.fuLen.extractLsb' 0 8
  | .fwLenHi => s.reg.fwLen.extractLsb' 8 8
  | .fwLenLo => s.reg.fwLen.extractLsb' 0 8

/-- The registers whose reads are defined while BUSY = 1 (10_state.md R49). -/
def readableWhileBusy : Reg → Bool
  | .status | .fwPhase | .chunkHi | .chunkLo | .rts | .baud3 | .baud2 | .baud1 | .baud0 | .result | .detail => true
  | _ => false

end Sys2Proof.Machine
end

