-- ==== Sys2Proof/Machine/HostAccess.lean ====
section
/-! DEFINITION. What the host and the platform can do to the engine: register and buffer accesses (10_state.md R23 to R49;
20_memory.md R60 to R62), the acceptance of a command (R25), and reset (70_reset_and_hazards.md R290 to R292). -/

namespace Sys2Proof.Machine

/-- Acceptance of CMD (10_state.md R25). -/
def accept (c : Byte) (s : State) : State :=
  { s with reg.cmd := c, reg.busy := true, reg.done := false, int.oparg := s.reg.arg, seq := .busy c 0 .start }

/-- A write that R48 refuses: it only sets OVR (10_state.md R30). -/
def refuseWrite (s : State) : State := { s with reg.ovr := true }

/-- A register written by a write that R48 lets through; read-only and reserved offsets ignore it (10_state.md R23, R44). -/
def writeFree (off v : Byte) (s : State) : State :=
  match regAt off with
  | some .cmd => accept v s
  | some .arg => { s with reg.arg := v }
  | some .fuLenHi => { s with reg.fuLen := v ++ s.reg.fuLen.extractLsb' 0 8 }
  | some .fuLenLo => { s with reg.fuLen := s.reg.fuLen.extractLsb' 8 8 ++ v }
  | some .fwLenHi => { s with reg.fwLen := v ++ s.reg.fwLen.extractLsb' 0 8 }
  | some .fwLenLo => { s with reg.fwLen := s.reg.fwLen.extractLsb' 8 8 ++ v }
  | _ => s

/-- A write of STATUS: bit 2 clears OVR, nothing else changes (10_state.md R27). -/
def writeStatus (v : Byte) (s : State) : State := if v.getLsbD 2 then { s with reg.ovr := false } else s

/-- Host write of a register (10_state.md R27, R48). -/
def hostWrite (off v : Byte) (s : State) : State :=
  if regAt off = some .status then writeStatus v s
  else if s.reg.busy then refuseWrite s
  else writeFree off v s

/-- The host writes to these buffers; RX and INFO ignore it (20_memory.md R60, R61). -/
def hostWritable : Buf → Bool
  | .edid | .fw | .frame => true
  | .rx | .info => false

/-- Host write of a buffer byte (10_state.md R48; 20_memory.md R61). -/
def hostBufWrite (b : Buf) (a : Nat) (v : Byte) (s : State) : State :=
  if s.reg.busy then refuseWrite s
  else if hostWritable b then { s with buf := s.buf.setByte b a v }
  else s

/-- A host read returned `v`. -/
def giveHost (v : Byte) (s : State) : State := { s with env.hostReads := s.env.hostReads ++ [v] }

/-- A host read returned any value, a fresh one (10_state.md R49; log 6). -/
def giveFree (s : State) : State :=
  { giveHost (Config.busyRead s.env.freeReads) s with env.freeReads := s.env.freeReads + 1 }

/-- Host read of a register (10_state.md R44, R49). While BUSY = 1 the model follows R44 for a reserved offset (log 24), and R49
for the whole byte of SEL and CKMASK, unused bits too (log 29). -/
def hostRead (off : Byte) (s : State) : State :=
  match regAt off with
  | none => giveHost 0 s
  | some r => if s.reg.busy && !readableWhileBusy r then giveFree s else giveHost (regByte s r) s

/-- Host read of a buffer byte (20_memory.md R61; 10_state.md R49; log 24). -/
def hostBufRead (b : Buf) (a : Nat) (s : State) : State :=
  if bufSize b ≤ a then giveHost 0 s
  else if s.reg.busy then giveFree s
  else giveHost (s.byteAt b a) s

/-! ## Accesses by platform address (20_memory.md R67) -/

/-- Where PLATFORM_MAP puts a buffer. -/
def PlatformMap.base (m : PlatformMap) : Buf → Nat
  | .edid => m.edid
  | .fw => m.fw
  | .frame => m.frame
  | .rx => m.rx
  | .info => m.info

/-- The register offset at an address of the host's own map, if the address is in the register space's 256 (10_state.md R23). -/
def PlatformMap.offsetAt (m : PlatformMap) (addr : Nat) : Option Byte :=
  if m.regs ≤ addr ∧ addr < m.regs + 256 then some (BitVec.ofNat 8 (addr - m.regs)) else none

/-- The buffer byte at an address of the host's own map, if there is one. -/
def PlatformMap.bufferAt (m : PlatformMap) (addr : Nat) : Option (Buf × Nat) :=
  [Buf.edid, .fw, .frame, .rx, .info].findSome? fun b =>
    if PlatformMap.base m b ≤ addr ∧ addr < PlatformMap.base m b + bufSize b then some (b, addr - PlatformMap.base m b) else none

/-- The access that a move stands for: an access by platform address becomes the register or buffer access that PLATFORM_MAP puts
there (log 22); an address that is not the engine's, and every other move, stays as it is. -/
def Event.resolve (m : PlatformMap) (e : Event) : Event :=
  match e with
  | .busWrite addr v =>
    match PlatformMap.offsetAt m addr, PlatformMap.bufferAt m addr with
    | some off, _ => .write off v
    | none, some (b, a) => .bufWrite b a v
    | none, none => e
  | .busRead addr =>
    match PlatformMap.offsetAt m addr, PlatformMap.bufferAt m addr with
    | some off, _ => .read off
    | none, some (b, a) => .bufRead b a
    | none, none => e
  | _ => e

/-- One round of WAITDONE (30_encoding.md R109): a read of STATUS, and where DONE = 0 an engine step and another round
(log 18). -/
def hostWaitDone (s : State) : State :=
  let s' := hostRead 0x02 s
  if s.reg.done then s' else { s' with env.agenda := .engine :: .waitDone :: s.env.agenda }

/-- The bytes of the `LinkWrite` the engine is about to perform, if it stands at one. -/
def writeInProgress (s : State) : Bytes :=
  match s.seq with
  | .busy op _ .send => [deviceByte op s]
  | .busy _ _ .sendNext => [0x05]
  | .busy _ _ (.request st) => requestFrame s st
  | .busy _ _ (.writeBlock ext) => edidBlock s (if ext then 1 else 0)
  | _ => []

/-- Reset (70_reset_and_hazards.md R290 to R292): registers, sequencer and buffers are reset; receive queue, history, transport
and device are not touched; a `LinkWrite` in progress has sent `sent` of its bytes (log 17). -/
def applyReset (sent : Nat) (s : State) : State :=
  { s with
    reg := Regs.atReset s.params
    int := Internal.atReset
    seq := .idle
    buf := Buffers.atReset (s.buf.epoch + 1)
    link.tl := s.link.tl ++ (writeInProgress s).take sent }

/-- The device appends bytes to the receive queue (20_memory.md R70). -/
def deviceSends (bs : Bytes) (s : State) : State := { s with link.rq := s.link.rq ++ bs }

/-- The platform drives link_attached (10_state.md R31; 20_memory.md R84). -/
def attach (level : Bool) (s : State) : State := { s with link.attached := level }

/-- The platform configures the transport (70_reset_and_hazards.md R294, R305); no register follows it. -/
def configureLine (baud : BitVec 32) (rts : Bool) (s : State) : State := { s with link.lineBaud := baud, link.lineRts := rts }

end Sys2Proof.Machine
end

