-- ==== Sys2Proof/Machine/Edid.lean ====
section
/-! DEFINITION. The EDID model's host operations, EDID_CHECKSUMS and EDID_ISVALID (40_edid_model.md R131, R133). Each is one
step: neither uses the link. -/

namespace Sys2Proof.Machine

/-- The one outcome of a meaning whose instruction the sequencer does not stand at (log 14). -/
def offSequence : Host.Outcome State Fault Refusal := .refused .offSequence

/-- EDID_CHECKSUMS on legal and illegal operands (R131). -/
def edidChecksums (nblk : Byte) (s : State) : State :=
  if nblk = 1 ∨ nblk = 2 then
    if ckMask nblk.toNat s = 0 then finish .ok .none (ckEval nblk.toNat s)
    else raise .invalidData .checksumMismatch (ckEval nblk.toNat s)
  else raise .illegalCommand .badArg s

/-- EDID_CHECKSUMS (R131). -/
def execEdidChecksums (nblk : Byte) (s : State) : Host.Outcome State Fault Refusal :=
  match s.seq with
  | .busy _ _ .start => .next (edidChecksums nblk s)
  | _ => offSequence

/-- EDID_ISVALID (R133). -/
def edidIsvalid (s : State) : State :=
  match validResult s with
  | none => finish .ok .none (validEval s)
  | some d => raise .invalidData d (validEval s)

/-- EDID_ISVALID (R133). -/
def execEdidIsvalid (s : State) : Host.Outcome State Fault Refusal :=
  match s.seq with
  | .busy _ _ .start => .next (edidIsvalid s)
  | _ => offSequence

end Sys2Proof.Machine
end

