-- ==== Sys2Proof/Machine/Framer.lean ====
section
/-! DEFINITION. The framer's host operations, FW_VALIDATE, FU_ENCODE and FU_DECODE (42_fu_framer.md R198, R194, R195). Each is
one step: none uses the link. -/

namespace Sys2Proof.Machine

/-- FW_VALIDATE (R198). -/
def fwValidate (s : State) : State :=
  match imageCheck s with
  | none => finish .ok .none s
  | some d => raise .invalidData d s

/-- FW_VALIDATE (R198). -/
def execFwValidate (s : State) : Host.Outcome State Fault Refusal :=
  match s.seq with
  | .busy _ _ .start => .next (fwValidate s)
  | _ => offSequence

/-- The frame FU_ENCODE completes: magic and opcode written, then the checksum of the first `len` bytes after them (R194). -/
def encodeFrame (opcode : Byte) (len : Nat) (s : State) : State :=
  let s1 := s.setBytes .frame 0 [Config.magic0, Config.magic1, opcode]
  s1.setBytes .frame len [fuCk (s1.bytes .frame 0 len)]

/-- FU_ENCODE (R194). -/
def fuEncode (opcode : Byte) (s : State) : State :=
  let len := s.reg.fuLen.toNat
  if len < 3 ∨ 255 < len then raise .illegalCommand .badLength s
  else finish .ok .none { encodeFrame opcode len s with reg.fuLen := s.reg.fuLen + 1 }

/-- FU_ENCODE (R194). -/
def execFuEncode (opcode : Byte) (s : State) : Host.Outcome State Fault Refusal :=
  match s.seq with
  | .busy _ _ .start => .next (fuEncode opcode s)
  | _ => offSequence

/-- FU_DECODE (R195): the checks of a reply in the EN phase, where an opcode mismatch is READ_ERROR. -/
def fuDecode (request : Byte) (s : State) : State :=
  let len := s.reg.fuLen.toNat
  if len < 4 ∨ 256 < len then raise .illegalCommand .badLength s
  else
    match fuReplyCheck (s.bytes .frame 0 len) request true with
    | none => finish .ok .none s
    | some (r, d) => raise r d s

/-- FU_DECODE (R195). -/
def execFuDecode (request : Byte) (s : State) : Host.Outcome State Fault Refusal :=
  match s.seq with
  | .busy _ _ .start => .next (fuDecode request s)
  | _ => offSequence

end Sys2Proof.Machine
end

