-- ==== Sys2Proof/Machine/Device.lean ====
section
/-! DEFINITION. The device command operations and the ready poll (41_device_commands.md), with the device bytes they send
(30_encoding.md R94, R95) and the byte a poll waits for (R96). A meaning performs the one step that stands at the sequencer
position (00_scope.md R8). -/

namespace Sys2Proof.Machine

/-! ## Shared steps -/

/-- The attachment prologue (R160), then `next`. -/
def ifAttached (next : State → State) (s : State) : State :=
  if s.link.attached then next s else raise .deviceNotAttached .none s

/-- `Sleep(ms)`, then the engine goes on at `p`. -/
def sleepThen (ms : Nat) (p : Point) (s : State) : State := (sleep ms s).goto p

/-- The read of one poll attempt (R150): READY goes on with the operation; any other byte or none is one more failed attempt,
and the third raises READ_ERROR(POLL_EXHAUSTED) (R151). -/
def pollAttempt (failed : Nat) (aft : AfterPoll) (s : State) : State :=
  if s.link.rq.head? = some Config.readyByte then (linkReadByte s).goto (afterReady aft s)
  else if failed + 1 < Config.pollAttempts then (linkReadByte s).goto (.pollSleep (failed + 1) aft)
  else raiseNext .readError .pollExhausted (linkReadByte s)

/-- One device byte sent by one `LinkWrite` (30_encoding.md R94), where the operation stands at a transmission. -/
def sendDeviceByte (b : Byte) (s : State) : Host.Outcome State Fault Refusal :=
  match s.seq with
  | .busy op _ .send => .next (transmit [b] (afterSend op) s)
  | .busy _ _ .sendNext => .next (transmit [b] .nextSettle s)
  | _ => offSequence

/-! ## SELECT (R152) -/

/-- The first step of SELECT: the operand, DISPLAY, the attachment check. -/
def selectStart (p : Byte) (s : State) : State :=
  if 4 < p.toNat then raise .illegalCommand .badArg s
  else if p = 4 then finish .ok .none { s with reg.sel := 4 }
  else ifAttached (·.goto .send) s

/-- The last step of SELECT. -/
def selectEnd (p : Byte) (s : State) : State := finish .ok .none { s with reg.sel := p.setWidth 3 }

/-- SELECT (R152). -/
def execSelect (position : Byte) (s : State) : Host.Outcome State Fault Refusal :=
  match s.seq with
  | .busy _ _ .start => .next (selectStart position s)
  | .busy _ _ .settle => .next (sleepThen Config.cmdDelayMs .setSel s)
  | .busy _ _ .setSel => .next (selectEnd position s)
  | .busy _ _ (.ending r d) => .next (finish r d s)
  | _ => offSequence

/-! ## CEC_CONNECT, CEC_DISCONNECT (R153, R154) -/

/-- The steps the two CEC operations perform around their device byte. -/
def cecStep (s : State) : Host.Outcome State Fault Refusal :=
  match s.seq with
  | .busy _ _ .start => .next (ifAttached (·.goto .send) s)
  | .busy _ _ .settle => .next (sleepThen Config.cmdDelayMs (.ending .ok .none) s)
  | .busy _ _ (.ending r d) => .next (finish r d s)
  | _ => offSequence

/-- CEC_CONNECT (R153). -/
def execCecConnect (s : State) : Host.Outcome State Fault Refusal := cecStep s

/-- CEC_DISCONNECT (R154). -/
def execCecDisconnect (s : State) : Host.Outcome State Fault Refusal := cecStep s

/-! ## IDENTIFY (R155) -/

/-- The read of IDENTIFY: no byte is READ_ERROR(NO_REPLY), any byte is the reply. -/
def identifyRead (s : State) : State :=
  match s.link.rq.head? with
  | none => raiseNext .readError .noReply (linkReadByte s)
  | some b => (linkReadByte s).goto (.storeId b)

/-- The last step of IDENTIFY. -/
def identifyEnd (b : Byte) (s : State) : State := finish .ok .none { s with reg.idbyte := b }

/-- IDENTIFY (R155). -/
def execIdentify (s : State) : Host.Outcome State Fault Refusal :=
  match s.seq with
  | .busy _ _ .start => .next (ifAttached (·.goto .send) s)
  | .busy _ _ .settle => .next (sleepThen Config.cmdDelayMs .receive s)
  | .busy _ _ .receive => .next (identifyRead s)
  | .busy _ _ (.storeId b) => .next (identifyEnd b s)
  | .busy _ _ (.ending r d) => .next (finish r d s)
  | _ => offSequence

/-! ## READ_EDID (R156, R157) -/

/-- Where READ_EDID goes on once a block is stored: after block 0 to the one extension block there may be (R157). -/
def afterBlock (ext : Bool) (s : State) : Point := if ext = false ∧ extCount s ≠ 0 then .sendNext else .check

/-- The block that was read is stored. -/
def storeBlock (ext : Bool) (r : Bytes) (s : State) : State :=
  let s1 := s.setBytes .edid (if ext then Config.edidBlockLen else 0) r
  s1.goto (afterBlock ext s1)

/-- The end of READ_EDID: an invalid blob is a completed result, not an error (60_exceptions.md R279). -/
def readEdidEnd (s : State) : State :=
  match validResult s with
  | none => finish .ok .none (validEval s)
  | some d => finish .edidInvalid d (validEval s)

/-- READ_EDID (R156). -/
def execReadEdid (s : State) : Host.Outcome State Fault Refusal :=
  match s.seq with
  | .busy _ _ .start => .next (ifAttached (·.goto .send) s)
  | .busy _ _ (.pollSleep failed aft) => .next (sleepThen Config.pollDelayMs (.pollRead failed aft) s)
  | .busy _ _ (.readBlock ext) => .next (receiveBytes Config.edidBlockLen (.storeBlock ext) s)
  | .busy _ _ (.storeBlock ext r) => .next (storeBlock ext r s)
  | .busy _ _ .nextSettle => .next (sleepThen Config.cmdDelayMs (.readBlock true) s)
  | .busy _ _ .check => .next (readEdidEnd s)
  | .busy _ _ (.ending r d) => .next (finish r d s)
  | _ => offSequence

/-! ## WRITE_EDID (R158) -/

/-- The validation of WRITE_EDID, before any link primitive. -/
def writeEdidValidate (s : State) : State :=
  match validResult s with
  | none => (validEval s).goto .send
  | some d => raise .invalidData d (validEval s)

/-- Which handshake follows a written block. -/
def afterWrite (ext : Bool) : Point := .pollSleep 0 (if ext then .wroteBlock1 else .wroteBlock0)

/-- WRITE_EDID (R158). -/
def execWriteEdid (s : State) : Host.Outcome State Fault Refusal :=
  match s.seq with
  | .busy _ _ .start => .next (ifAttached (·.goto .validate) s)
  | .busy _ _ .validate => .next (writeEdidValidate s)
  | .busy _ _ (.pollSleep failed aft) => .next (sleepThen Config.pollDelayMs (.pollRead failed aft) s)
  | .busy _ _ (.writeBlock ext) => .next (transmit (edidBlock s (if ext then 1 else 0)) (afterWrite ext) s)
  | .busy _ _ (.ending r d) => .next (finish r d s)
  | _ => offSequence

/-! ## The device bytes (30_encoding.md R95) and READY (R96) -/

/-- SEL_DEFAULT, sent by SELECT 0 (R152). -/
def execDevSelDefault (s : State) : Host.Outcome State Fault Refusal := sendDeviceByte 0x01 s

/-- SEL_1, sent by SELECT 1 (R152). -/
def execDevSel1 (s : State) : Host.Outcome State Fault Refusal := sendDeviceByte 0x02 s

/-- SEL_2, sent by SELECT 2 (R152). -/
def execDevSel2 (s : State) : Host.Outcome State Fault Refusal := sendDeviceByte 0x03 s

/-- SEL_3, sent by SELECT 3 (R152). -/
def execDevSel3 (s : State) : Host.Outcome State Fault Refusal := sendDeviceByte 0x04 s

/-- NEXT_BLOCK, sent by READ_EDID (R156). -/
def execDevNextBlock (s : State) : Host.Outcome State Fault Refusal := sendDeviceByte 0x05 s

/-- READ_DISPLAY, sent by READ_EDID with SEL = DISPLAY (R156). -/
def execDevReadDisplay (s : State) : Host.Outcome State Fault Refusal := sendDeviceByte 0x07 s

/-- CEC_ON, sent by CEC_CONNECT (R153). -/
def execDevCecOn (s : State) : Host.Outcome State Fault Refusal := sendDeviceByte 0x08 s

/-- CEC_OFF, sent by CEC_DISCONNECT (R154). -/
def execDevCecOff (s : State) : Host.Outcome State Fault Refusal := sendDeviceByte 0x09 s

/-- WRITE, sent by WRITE_EDID (R158). -/
def execDevWrite (s : State) : Host.Outcome State Fault Refusal := sendDeviceByte 0x0A s

/-- IDENT, sent by IDENTIFY (R155). -/
def execDevIdent (s : State) : Host.Outcome State Fault Refusal := sendDeviceByte 0x0B s

/-- READ_DEVICE, sent by READ_EDID with SEL other than DISPLAY (R156). -/
def execDevReadDevice (s : State) : Host.Outcome State Fault Refusal := sendDeviceByte 0x0C s

/-- READY, the byte a poll attempt waits for (R150): the read of the attempt. -/
def execDevReady (s : State) : Host.Outcome State Fault Refusal :=
  match s.seq with
  | .busy _ _ (.pollRead failed aft) => .next (pollAttempt failed aft s)
  | _ => offSequence

end Sys2Proof.Machine
end

