-- ==== Sys2Proof/Machine/Update.lean ====
section
/-! DEFINITION. FW_UPDATE (43_fw_update.md R220 to R239) and the firmware packets it sends and reads (30_encoding.md R97 to
R99). A meaning performs the one step that stands at the sequencer position. -/

namespace Sys2Proof.Machine

/-! ## The operation's own steps -/

/-- R221. -/
def updateStart (s : State) : State :=
  ifAttached (·.goto .validate) { s with reg.fwPhase := 0, reg.chunk := 0, int.entered := false }

/-- R222. -/
def updateValidate (s : State) : State :=
  let s1 : State := { s with reg.fwPhase := 1 }
  match imageCheck s with
  | none => s1.goto .enter
  | some d => raise .invalidData d s1

/-- FW_PHASE 2 and the saves of R223. -/
def updateEnter (s : State) : State :=
  { s with reg.fwPhase := 2, int.savedBaud := s.reg.linkBaud, int.savedRts := s.reg.rts, int.entered := true }.goto .enterBaud

/-- A phase after EN begins: FW_PHASE takes its code, and phase 0xA3 starts at chunk 0 (R220, R230). -/
def updatePhase (st : Stage) (s : State) : State :=
  { s with reg.fwPhase := st.phaseCode, reg.chunk := if st = Stage.part2 then 0 else s.reg.chunk }.goto (.build st)

/-- CHUNK takes the next index (R230). -/
def updateNextChunk (s : State) : State := { s with reg.chunk := s.reg.chunk + 1 }.goto (.build .part2)

/-- R233: every phase passed; the teardown follows. -/
def updateAllPassed (s : State) : State := { s with reg.fwPhase := 10 }.goto (.tearBaud .ok .none)

/-- The rate the teardown restores (R234). -/
def restoreBaud (s : State) : BitVec 32 :=
  match s.params.restorePolicy with
  | .preserve => s.int.savedBaud
  | .hard => Config.normalBaud

/-- The RTS level the teardown restores (R234). -/
def restoreRts (s : State) : Bool :=
  match s.params.restorePolicy with
  | .preserve => s.int.savedRts
  | .hard => true

/-- FW_UPDATE (R220). -/
def execFwUpdate (s : State) : Host.Outcome State Fault Refusal :=
  match s.seq with
  | .busy _ _ .start => .next (updateStart s)
  | .busy _ _ .validate => .next (updateValidate s)
  | .busy _ _ .enter => .next (updateEnter s)
  | .busy _ _ .enterBaud => .next ((linkSetBaud Config.fwBaud s).goto .enterRts)
  | .busy _ _ .enterRts => .next ((linkSetRts false s).goto .enterSleep)
  | .busy _ _ .enterSleep => .next (sleepThen Config.linkSettleMs .enterClear s)
  | .busy _ _ .enterClear => .next ((linkClear s).goto (.build .en))
  | .busy _ _ .enSleep => .next (sleepThen Config.fuReplyDelayMs (.pending .en) s)
  | .busy _ _ (.pending st) => .next (linkWaitPending (·.goto (.reply st)) s)
  | .busy _ _ (.phase st) => .next (updatePhase st s)
  | .busy _ _ .nextChunk => .next (updateNextChunk s)
  | .busy _ _ .allPassed => .next (updateAllPassed s)
  | .busy _ _ (.tearBaud r d) => .next ((linkSetBaud (restoreBaud s) s).goto (.tearRts r d))
  | .busy _ _ (.tearRts r d) => .next ((linkSetRts (restoreRts s) s).goto (.tearSleep r d))
  | .busy _ _ (.tearSleep r d) => .next (sleepThen Config.linkSettleMs (.tearClear r d) s)
  | .busy _ _ (.tearClear r d) => .next ((linkClear s).goto (.ending r d))
  | .busy _ _ (.ending r d) => .next (finish r d s)
  | _ => offSequence

/-! ## Requests (R224) -/

/-- A packet's step `t` is taken where the sequencer stands at the packet's own phase and nothing would leave its buffer. -/
def packetStep (st here : Stage) (fits : Bool) (t : State) : Host.Outcome State Fault Refusal :=
  if here = st then (if fits then .next t else .fault .outsideBuffer) else offSequence

/-- The frame is built in FRAME_BUF, and FU_LEN counts its bytes. -/
def buildRequest (st : Stage) (s : State) : State :=
  { s.setBytes .frame 0 (requestFrame s st) with reg.fuLen := BitVec.ofNat 16 (requestFrame s st).length }.goto (.request st)

/-- The frame is sent in one `LinkWrite`. -/
def sendRequest (st : Stage) (s : State) : State := transmit (requestFrame s st) (afterRequest st) s

/-- The two steps of a phase's request. -/
def requestStep (st : Stage) (s : State) : Host.Outcome State Fault Refusal :=
  match s.seq with
  | .busy _ _ (.build here) => packetStep st here (requestFits s st) (buildRequest st s)
  | .busy _ _ (.request here) => packetStep st here (requestFits s st) (sendRequest st s)
  | _ => offSequence

/-- Request EN (R225). -/
def execFuReqEn (s : State) : Host.Outcome State Fault Refusal := requestStep .en s

/-- Request 0x80 (R226). -/
def execFuReqMode (s : State) : Host.Outcome State Fault Refusal := requestStep .mode s

/-- Request 0x90 (R227). -/
def execFuReqDi (s : State) : Host.Outcome State Fault Refusal := requestStep .di s

/-- Request 0xA0 (R228). -/
def execFuReqCt (s : State) : Host.Outcome State Fault Refusal := requestStep .ct s

/-- Request 0xA2 (R229). -/
def execFuReqPart1 (s : State) : Host.Outcome State Fault Refusal := requestStep .part1 s

/-- Request 0xA3 (R230). -/
def execFuReqPart2 (s : State) : Host.Outcome State Fault Refusal := requestStep .part2 s

/-- Request 0xA4 (R231). -/
def execFuReqDt (s : State) : Host.Outcome State Fault Refusal := requestStep .dt s

/-- Request 0xA5 (R232). -/
def execFuReqAd (s : State) : Host.Outcome State Fault Refusal := requestStep .ad s

/-! ## Replies (R224 to R232) -/

/-- The checks a phase makes beyond magic, checksum and opcode, first failing check first (60_exceptions.md R271): none in EN;
the index, then the status, in 0xA3; the status, then the model name, in 0x90; the status in the others. -/
def phaseCheck (s : State) (st : Stage) (r : Bytes) : Option DetailCode :=
  if st = .part2 ∧ indexOk r s.params s.reg.chunk = false then some .rejIndex
  else if zeroAt r (st.statusOffs s.params) = false then some .rejStatus
  else if st = .di ∧ modelOk r s.params = false then some .rejModel
  else none

/-- A reply that passed its reply check: INFO_BUF keeps the 0x90 reply (R227), then the phase's own checks decide. -/
def acceptReply (st : Stage) (r : Bytes) (s : State) : State :=
  let s1 := if st = .di then s.setBytes .info 0 r else s
  match phaseCheck s st r with
  | some d => raise .writeError d s1
  | none => s1.goto (afterPhase s st)

/-- A reply that was read: RX_BUF keeps it, then the reply check of 42_fu_framer.md R199 decides. -/
def checkReply (st : Stage) (r : Bytes) (s : State) : State :=
  let s1 := s.setBytes .rx 0 r
  match fuReplyCheck r st.reqOp (st == .en) with
  | some (e, d) => raise e d s1
  | none => acceptReply st r s1

/-- The two steps of a phase's reply: the read, then the storing and the checks. -/
def replyStep (st : Stage) (s : State) : Host.Outcome State Fault Refusal :=
  match s.seq with
  | .busy _ _ (.reply here) => packetStep st here (replyFits s st) (receiveBytes (st.repLen s.params) (.gotReply st) s)
  | .busy _ _ (.gotReply here r) => packetStep st here (gotFits s st r) (checkReply st r s)
  | _ => offSequence

/-- Reply EN (R225). -/
def execFuRepEn (s : State) : Host.Outcome State Fault Refusal := replyStep .en s

/-- Reply to 0x80 (R226). -/
def execFuRepMode (s : State) : Host.Outcome State Fault Refusal := replyStep .mode s

/-- Reply to 0x90 (R227). -/
def execFuRepDi (s : State) : Host.Outcome State Fault Refusal := replyStep .di s

/-- Reply to 0xA0 (R228). -/
def execFuRepCt (s : State) : Host.Outcome State Fault Refusal := replyStep .ct s

/-- Reply to 0xA2 (R229). -/
def execFuRepPart1 (s : State) : Host.Outcome State Fault Refusal := replyStep .part1 s

/-- Reply to 0xA3 (R230). -/
def execFuRepPart2 (s : State) : Host.Outcome State Fault Refusal := replyStep .part2 s

/-- Reply to 0xA4 (R231). -/
def execFuRepDt (s : State) : Host.Outcome State Fault Refusal := replyStep .dt s

/-- Reply to 0xA5 (R232). -/
def execFuRepAd (s : State) : Host.Outcome State Fault Refusal := replyStep .ad s

end Sys2Proof.Machine
end

