-- ==== Sys2Proof/Machine/Dispatch.lean ====
section
/-! DEFINITION. Dispatch: one arm per instruction, each a call of its meaning. -/

namespace Sys2Proof.Machine

/-- One step of the instruction the sequencer stands at. -/
def exec (i : Instr) (s : State) : Host.Outcome State Fault Refusal :=
  match i with
  | .edidChecksums nblk => Sys2Proof.Machine.execEdidChecksums nblk s
  | .edidIsvalid => Sys2Proof.Machine.execEdidIsvalid s
  | .fwValidate => Sys2Proof.Machine.execFwValidate s
  | .fuEncode opcode => Sys2Proof.Machine.execFuEncode opcode s
  | .fuDecode request => Sys2Proof.Machine.execFuDecode request s
  | .select position => Sys2Proof.Machine.execSelect position s
  | .cecConnect => Sys2Proof.Machine.execCecConnect s
  | .cecDisconnect => Sys2Proof.Machine.execCecDisconnect s
  | .identify => Sys2Proof.Machine.execIdentify s
  | .readEdid => Sys2Proof.Machine.execReadEdid s
  | .writeEdid => Sys2Proof.Machine.execWriteEdid s
  | .fwUpdate => Sys2Proof.Machine.execFwUpdate s
  | .devSelDefault => Sys2Proof.Machine.execDevSelDefault s
  | .devSel1 => Sys2Proof.Machine.execDevSel1 s
  | .devSel2 => Sys2Proof.Machine.execDevSel2 s
  | .devSel3 => Sys2Proof.Machine.execDevSel3 s
  | .devNextBlock => Sys2Proof.Machine.execDevNextBlock s
  | .devReadDisplay => Sys2Proof.Machine.execDevReadDisplay s
  | .devCecOn => Sys2Proof.Machine.execDevCecOn s
  | .devCecOff => Sys2Proof.Machine.execDevCecOff s
  | .devWrite => Sys2Proof.Machine.execDevWrite s
  | .devIdent => Sys2Proof.Machine.execDevIdent s
  | .devReadDevice => Sys2Proof.Machine.execDevReadDevice s
  | .devReady => Sys2Proof.Machine.execDevReady s
  | .fuReqEn => Sys2Proof.Machine.execFuReqEn s
  | .fuReqMode => Sys2Proof.Machine.execFuReqMode s
  | .fuReqDi => Sys2Proof.Machine.execFuReqDi s
  | .fuReqCt => Sys2Proof.Machine.execFuReqCt s
  | .fuReqPart1 => Sys2Proof.Machine.execFuReqPart1 s
  | .fuReqPart2 => Sys2Proof.Machine.execFuReqPart2 s
  | .fuReqDt => Sys2Proof.Machine.execFuReqDt s
  | .fuReqAd => Sys2Proof.Machine.execFuReqAd s
  | .fuRepEn => Sys2Proof.Machine.execFuRepEn s
  | .fuRepMode => Sys2Proof.Machine.execFuRepMode s
  | .fuRepDi => Sys2Proof.Machine.execFuRepDi s
  | .fuRepCt => Sys2Proof.Machine.execFuRepCt s
  | .fuRepPart1 => Sys2Proof.Machine.execFuRepPart1 s
  | .fuRepPart2 => Sys2Proof.Machine.execFuRepPart2 s
  | .fuRepDt => Sys2Proof.Machine.execFuRepDt s
  | .fuRepAd => Sys2Proof.Machine.execFuRepAd s

end Sys2Proof.Machine
end

