-- ==== Sys2Proof/Machine/Engine.lean ====
section
/-! DEFINITION. One move of the machine: the engine's step, which fetches at the sequencer position, decodes and runs the
instruction, and the moves of the other agents that the agenda lists (log 3). -/

namespace Sys2Proof.Machine

/-- What a code word that no instruction has means: a reserved host code ends with ILLEGAL_COMMAND(BAD_CMD) in its first step
(30_encoding.md R93; log 28). -/
def undecoded (e : DecodeError) (s : State) : Host.Outcome State Fault Refusal :=
  match e with
  | .reservedCommand _ => .next (raise .illegalCommand .badCmd s)
  | _ => offSequence

/-- One engine step (00_scope.md R8). IDLE waits and all state survives it (60_exceptions.md R281). -/
def engineStep (s : State) : Host.Outcome State Fault Refusal :=
  match fetch s with
  | none => .next s
  | some (sp, bs) =>
    match decode sp bs with
    | .ok i => exec i s
    | .error e => undecoded e s

/-- A move of the agenda, once it is taken off the list. An access to an address that is not the engine's does nothing to it. -/
def move (e : Event) (s : State) : Host.Outcome State Fault Refusal :=
  match e.resolve s.params.platformMap with
  | .engine => engineStep s
  | .write off v => .next (hostWrite off v s)
  | .read off => .next (hostRead off s)
  | .bufWrite b a v => .next (hostBufWrite b a v s)
  | .bufRead b a => .next (hostBufRead b a s)
  | .busWrite _ _ | .busRead _ => .next s
  | .waitDone => .next (hostWaitDone s)
  | .device bs => .next (deviceSends bs s)
  | .attach level => .next (attach level s)
  | .configure baud rts => .next (configureLine baud rts s)
  | .reset sent => .next (applyReset sent s)

/-- One step: the next move of the agenda, or the engine's where nothing is listed. -/
def agendaStep (s : State) : Host.Outcome State Fault Refusal :=
  match s.env.agenda with
  | [] => engineStep s
  | e :: rest => move e { s with env.agenda := rest }

/-! ## Placing one instruction -/

/-- The operation that sends a device byte, and the SEL and OPARG under which it does (30_encoding.md R95). -/
def sender (b : Byte) (s : State) : State :=
  let at_ (op : Byte) (s : State) : State :=
    { s with reg.cmd := op, reg.busy := true, reg.done := false, seq := .busy op 0 .send }
  if b = 0x07 then at_ opReadEdid { s with reg.sel := 4 }
  else if b = 0x08 then at_ opCecConnect s
  else if b = 0x09 then at_ opCecDisconnect s
  else if b = 0x0A then at_ opWriteEdid s
  else if b = 0x0B then at_ opIdentify s
  else at_ opReadEdid { s with reg.sel := 0 }

/-- The phase and direction of a packet opcode (30_encoding.md R99). -/
def packetPoint (op : Byte) : Option Point :=
  ([Stage.en, .mode, .di, .ct, .part1, .part2, .dt, .ad].findSome? fun st =>
    if st.reqOp = op then some (Point.build st) else if st.repOp = op then some (Point.reply st) else none)

/-- The phase a point belongs to. -/
def pointPhase : Point → BitVec 4
  | .build st | .reply st => st.phaseCode
  | _ => 0

/-- FW_UPDATE standing at a packet; a reply's bytes wait in the receive queue, zeros after the first three. -/
def atPacket (bs : Bytes) (s : State) : State :=
  match packetPoint (bs.getD 2 0) with
  | none => s
  | some p =>
    { s with
      reg.cmd := opFwUpdate, reg.busy := true, reg.done := false, reg.fwPhase := pointPhase p
      int.entered := true, seq := .busy opFwUpdate 0 p
      link.rq := match p with
        | .reply st => bs ++ zeros (st.repLen s.params - 3)
        | _ => s.link.rq }

/-- The state whose next step runs the instruction that a table word encodes (log 11): a host command is accepted with its
operand byte, a device byte or a packet stands at the sequencer position, and the agenda is empty. -/
def placeWord (sp : Space) (bs : Bytes) (s : State) : State :=
  let s0 : State := { s with env.agenda := [] }
  match sp with
  | .host => accept (bs.getD 0 0) { s0 with reg.arg := bs.getD 1 0 }
  | .device => sender (bs.getD 0 0) s0
  | .inbound => s0
  | .packet => atPacket bs s0

end Sys2Proof.Machine
end

