-- ==== Sys2Proof/Machine/Step.lean ====
section
/-! DEFINITION. The step function, and the state that runs one given instruction next. -/

namespace Sys2Proof.Machine

/-- One step of the machine. -/
def step (s : State) : Host.Outcome State Fault Refusal := agendaStep s

/-- `s` with the instruction of a table word standing where the engine performs its next one (log 11). -/
def State.withFetchWord (s : State) (nbits w : Nat) : State := placeWord (tableSpace nbits w) (tableBytes nbits w) s

end Sys2Proof.Machine
end

