-- ==== Sys2Proof/Laws/PerInstr.lean ====
section
/-! SUPPORT. Families of facts that hold of every instruction, one lemma per constructor. -/

namespace Sys2Proof.Laws.DecodesBack

/-- An instruction's code word decodes to it, in its own space, whatever follows. -/
def Statement (i : Instr) : Prop := ∀ rest : Bytes, decode i.space (encode i ++ rest) = .ok i

theorem edidChecksums (nblk : Byte) : Statement (.edidChecksums nblk) := fun _ => rfl
theorem edidIsvalid : Statement .edidIsvalid := fun _ => rfl
theorem fwValidate : Statement .fwValidate := fun _ => rfl
theorem fuEncode (opcode : Byte) : Statement (.fuEncode opcode) := fun _ => rfl
theorem fuDecode (request : Byte) : Statement (.fuDecode request) := fun _ => rfl
theorem select (position : Byte) : Statement (.select position) := fun _ => rfl
theorem cecConnect : Statement .cecConnect := fun _ => rfl
theorem cecDisconnect : Statement .cecDisconnect := fun _ => rfl
theorem identify : Statement .identify := fun _ => rfl
theorem readEdid : Statement .readEdid := fun _ => rfl
theorem writeEdid : Statement .writeEdid := fun _ => rfl
theorem fwUpdate : Statement .fwUpdate := fun _ => rfl
theorem devSelDefault : Statement .devSelDefault := fun _ => rfl
theorem devSel1 : Statement .devSel1 := fun _ => rfl
theorem devSel2 : Statement .devSel2 := fun _ => rfl
theorem devSel3 : Statement .devSel3 := fun _ => rfl
theorem devNextBlock : Statement .devNextBlock := fun _ => rfl
theorem devReadDisplay : Statement .devReadDisplay := fun _ => rfl
theorem devCecOn : Statement .devCecOn := fun _ => rfl
theorem devCecOff : Statement .devCecOff := fun _ => rfl
theorem devWrite : Statement .devWrite := fun _ => rfl
theorem devIdent : Statement .devIdent := fun _ => rfl
theorem devReadDevice : Statement .devReadDevice := fun _ => rfl
theorem devReady : Statement .devReady := fun _ => rfl
theorem fuReqEn : Statement .fuReqEn := fun _ => rfl
theorem fuReqMode : Statement .fuReqMode := fun _ => rfl
theorem fuReqDi : Statement .fuReqDi := fun _ => rfl
theorem fuReqCt : Statement .fuReqCt := fun _ => rfl
theorem fuReqPart1 : Statement .fuReqPart1 := fun _ => rfl
theorem fuReqPart2 : Statement .fuReqPart2 := fun _ => rfl
theorem fuReqDt : Statement .fuReqDt := fun _ => rfl
theorem fuReqAd : Statement .fuReqAd := fun _ => rfl
theorem fuRepEn : Statement .fuRepEn := fun _ => rfl
theorem fuRepMode : Statement .fuRepMode := fun _ => rfl
theorem fuRepDi : Statement .fuRepDi := fun _ => rfl
theorem fuRepCt : Statement .fuRepCt := fun _ => rfl
theorem fuRepPart1 : Statement .fuRepPart1 := fun _ => rfl
theorem fuRepPart2 : Statement .fuRepPart2 := fun _ => rfl
theorem fuRepDt : Statement .fuRepDt := fun _ => rfl
theorem fuRepAd : Statement .fuRepAd := fun _ => rfl

end Sys2Proof.Laws.DecodesBack
end

