-- ==== Sys2Proof/Safety.lean ====
section
/-! DEFINITION. What counts as a well-formed state of the engine: the values that never occur (93 U19), the buffers' canonical
form, and where the sequencer may stand (the places of the pseudocode of files 40 to 43). -/

namespace Sys2Proof.Machine

/-- Every buffer is in canonical form and inside its size (20_memory.md R60). -/
abbrev Buffers.wf (m : Buffers) : Prop :=
  Mem.wf (bufSize .edid) m.edid ∧ Mem.wf (bufSize .fw) m.fw ∧ Mem.wf (bufSize .frame) m.frame ∧
    Mem.wf (bufSize .rx) m.rx ∧ Mem.wf (bufSize .info) m.info

/-- The (result, detail) pairs an operation can end with (30_encoding.md R101). -/
def legalOutcome : ResultCode → DetailCode → Bool
  | .ok, .none => true
  | .edidInvalid, d => d == .tooManyExtensions || d == .checksumMismatch
  | .invalidData, d =>
    d == .tooManyExtensions || d == .checksumMismatch || d == .imageLength || d == .imageTag || d == .imageWordsum
  | .readError, d =>
    d == .noReply || d == .linkRead || d == .pollExhausted || d == .badMagic || d == .badChecksum || d == .badOpcode
  | .writeError, d => d == .linkWrite || d == .rejOpcode || d == .rejStatus || d == .rejIndex || d == .rejModel
  | .deviceNotAttached, .none => true
  | .illegalCommand, d => d == .badCmd || d == .badArg || d == .badLength
  | _, _ => false

/-- RESULT and DETAIL hold a pair that can occur: NONE before any operation ended, else a legal outcome (R100, R101). -/
def outcomeOccurs (result detail : Byte) : Prop :=
  (result = 0xFF ∧ detail = 0x00) ∨ ∃ r d, legalOutcome r d = true ∧ result = resultByte r ∧ detail = detailByte d

/-- FW_UPDATE is in progress and has entered update mode. -/
def inUpdate (op : Byte) (s : State) : Bool := op == opFwUpdate && s.int.entered

/-- The engine may stand at `p` of operation `op` (files 40 to 43). -/
def legalAt (op : Byte) (s : State) : Point → Bool
  | .start => true
  | .validate => op == opWriteEdid || (op == opFwUpdate && !s.int.entered)
  | .send =>
    (op == opSelect && decide (s.int.oparg.toNat ≤ 3)) || op == opCecConnect || op == opCecDisconnect || op == opIdentify ||
      op == opReadEdid || op == opWriteEdid
  | .settle =>
    (op == opSelect && decide (s.int.oparg.toNat ≤ 3)) || op == opCecConnect || op == opCecDisconnect || op == opIdentify
  | .receive | .storeId _ => op == opIdentify
  | .setSel => op == opSelect && decide (s.int.oparg.toNat ≤ 3)
  | .pollSleep failed aft | .pollRead failed aft =>
    decide (failed < Config.pollAttempts) && (op == if aft = .readBlock0 then opReadEdid else opWriteEdid)
  | .storeBlock _ r => op == opReadEdid && decide (r.length = Config.edidBlockLen)
  | .readBlock _ | .sendNext | .nextSettle | .check => op == opReadEdid
  | .writeBlock _ => op == opWriteEdid
  | .enter => op == opFwUpdate && !s.int.entered
  | .enterBaud | .enterRts | .enterSleep | .enterClear | .enSleep => inUpdate op s && s.reg.fwPhase == 2
  | .phase st => inUpdate op s && st != .en && s.reg.fwPhase + 1 == st.phaseCode
  | .build st | .request st | .pending st | .reply st => inUpdate op s && s.reg.fwPhase == st.phaseCode
  | .gotReply st r =>
    inUpdate op s && s.reg.fwPhase == st.phaseCode && decide (r.length = st.repLen s.params)
  | .nextChunk => inUpdate op s && s.reg.fwPhase == 7 && decide (s.reg.chunk.toNat + 1 < Config.fwNChunks)
  | .allPassed => inUpdate op s && s.reg.fwPhase == 9
  | .tearBaud r d | .tearRts r d | .tearSleep r d | .tearClear r d => inUpdate op s && legalOutcome r d
  | .ending r d =>
    legalOutcome r d &&
      (inUpdate op s || op == opSelect || op == opCecConnect || op == opCecDisconnect || op == opIdentify ||
        op == opReadEdid || op == opWriteEdid)

/-- The invariant of the engine: it holds at reset and every step keeps it. -/
structure State.Inv (s : State) : Prop where
  /-- The parameters lie in their ranges (00_scope.md R10). -/
  params : s.params.ok = true
  /-- The buffers are canonical and inside their sizes. -/
  buffers : s.buf.wf
  /-- SEL is 0 to 4 (10_state.md R34). -/
  sel : s.reg.sel.toNat ≤ 4
  /-- FW_PHASE is 0 to 10 (30_encoding.md R108). -/
  phase : s.reg.fwPhase.toNat ≤ 10
  /-- CHUNK is 0 to 168 (10_state.md R39). -/
  chunk : s.reg.chunk.toNat < Config.fwNChunks
  /-- RESULT and DETAIL hold a pair that can occur. -/
  outcome : outcomeOccurs s.reg.result s.reg.detail
  /-- BUSY = 1 exactly while an operation is in progress (10_state.md R28). -/
  busy : s.reg.busy = true ↔ s.seq ≠ .idle
  /-- BUSY and DONE are never both 1 (10_state.md R28, R29). -/
  notBoth : ¬(s.reg.busy = true ∧ s.reg.done = true)
  /-- In IDLE, DONE = 1 exactly when an operation has ended since reset (10_state.md R29, R32). -/
  done : s.seq = .idle → (s.reg.done = true ↔ s.reg.result ≠ 0xFF)
  /-- CMD is the code in progress (10_state.md R25). -/
  cmd : ∀ op k p, s.seq = .busy op k p → s.reg.cmd = op
  /-- The engine stands at a place of that operation. -/
  place : ∀ op k p, s.seq = .busy op k p → legalAt op s p = true

end Sys2Proof.Machine
end

