-- ==== Sys2Proof/Certificates/Slice0/Obligations.lean ====
section
/-! DEFINITION. The statements for the provers. "The engine performs op at p" is written `s.seq = .busy op k p`. In the
statements that follow a whole operation (`Host.Core.run`) the agenda is empty, so the engine moves alone, and `∃ n` leaves
open in how many steps. A hypothesis `s.answer.fails = false` says that the device answers the next draw with ok (log 4). -/

open Sys2Proof Sys2Proof.Machine

/-! ## Reset and the host interface -/

/-- The reset values of 10_state.md R23, R24 and R45, at the default parameters where they depend on one (R10). -/
def Obligations.ResetStateHasTheResetValues : Prop :=
  State.reset.reg =
      { cmd := 0x00, arg := 0x00, busy := false, done := false, ovr := false, result := 0xFF, detail := 0x00, sel := 0
        idbyte := 0x00, ckmask := 0, found0 := 0x00, exp0 := 0x00, found1 := 0x00, exp1 := 0x00, fwPhase := 0
        chunk := 0x0000, rts := true, linkBaud := 115200, fuLen := 0x0000, fwLen := 0x0000 } ∧
    State.reset.int = { oparg := 0x00, savedBaud := 0, savedRts := false, entered := false } ∧
    State.reset.seq = .idle ∧
    (hostRead 0x10 State.reset).env.hostReads = [0x00] ∧ (hostRead 0x11 State.reset).env.hostReads = [0x01] ∧
    (hostRead 0x12 State.reset).env.hostReads = [0xC2] ∧ (hostRead 0x13 State.reset).env.hostReads = [0x00]

/-- Reset, whenever it is applied, also during an operation (70_reset_and_hazards.md R290, R292): the reset values everywhere, no
teardown; the queue, the history, the transport and the platform's input stay; a write in progress has sent some prefix of its
bytes, and with no write in progress the transmit log stays. That reset falls between two steps, so that a write about to be
performed is the write in progress, is the model's choice (log 17). What the buffers hold then is R291's and not said here. -/
def Obligations.ResetRestoresEveryRegisterAndNotTheLink : Prop :=
  ∀ (n : Nat) (s : State),
    ∃ pre : Bytes, pre <+: writeInProgress s ∧
      applyReset n s =
        { s with
          reg :=
            { cmd := 0x00, arg := 0x00, busy := false, done := false, ovr := false, result := 0xFF, detail := 0x00, sel := 0
              idbyte := 0x00, ckmask := 0, found0 := 0x00, exp0 := 0x00, found1 := 0x00, exp1 := 0x00, fwPhase := 0
              chunk := 0x0000, rts := s.params.initialRts, linkBaud := s.params.initialBaud, fuLen := 0x0000
              fwLen := 0x0000 }
          int := { oparg := 0x00, savedBaud := 0, savedRts := false, entered := false }
          seq := .idle
          buf := (applyReset n s).buf
          link.tl := s.link.tl ++ pre }

/-- Acceptance (10_state.md R25): every code is accepted while BUSY = 0, none while BUSY = 1. -/
def Obligations.CommandWriteIsAcceptedUnlessBusy : Prop :=
  ∀ (c : Byte) (s : State),
    (s.reg.busy = false →
      hostWrite 0x00 c s =
          { s with reg.cmd := c, reg.busy := true, reg.done := false, int.oparg := s.reg.arg, seq := .busy c 0 .start } ∧
        hostRead 0x00 s = { s with env.hostReads := s.env.hostReads ++ [s.reg.cmd] }) ∧
      (s.reg.busy = true → (hostWrite 0x00 c s).reg.cmd = s.reg.cmd ∧ (hostWrite 0x00 c s).seq = s.seq)

/-- 10_state.md R48 and R30: while BUSY = 1 a write to anything but STATUS changes nothing and sets OVR; STATUS writes pass; in
every step of the machine, OVR goes from 1 to 0 only by a host write of STATUS with bit 2 = 1, named by its offset or by its
platform address, or by reset. -/
def Obligations.OverrunIsSetByRefusedWritesAndClearedByStatusOrReset : Prop :=
  (∀ s : State, s.reg.busy = true →
    (∀ off v : Byte, off ≠ 0x02 → hostWrite off v s = { s with reg.ovr := true }) ∧
      ∀ (b : Buf) (a : Nat) (v : Byte), hostBufWrite b a v s = { s with reg.ovr := true }) ∧
    (∀ (s : State) (v : Byte), hostWrite 0x02 v s = if v.getLsbD 2 then { s with reg.ovr := false } else s) ∧
    ∀ s t : State, step s = .next t → s.reg.ovr = true → t.reg.ovr = false →
      (∃ (e : Event) (v : Byte) (rest : List Event),
        s.env.agenda = e :: rest ∧ e.resolve s.params.platformMap = .write 0x02 v ∧ v.getLsbD 2 = true) ∨
        ∃ (n : Nat) (rest : List Event), s.env.agenda = .reset n :: rest

/-- 10_state.md R44. That the read gives 0x00 also while BUSY = 1, where R49 lets most reads give any value, is the model's
choice (log 24). -/
def Obligations.ReservedOffsetsReadZeroAndIgnoreWrites : Prop :=
  ∀ (off v : Byte) (s : State), 0x18 ≤ off.toNat →
    hostRead off s = { s with env.hostReads := s.env.hostReads ++ [0x00] } ∧
      (s.reg.busy = false → hostWrite off v s = s) ∧ (s.reg.busy = true → hostWrite off v s = { s with reg.ovr := true })

/-- The register map of 10_state.md R23, read byte by byte: every register while BUSY = 0; while BUSY = 1 those of R49 (STATUS,
FW_PHASE, CHUNK, RTS, BAUD, RESULT and DETAIL), any other register gives one byte and changes nothing else; that nothing is said
then of the unused bits of SEL and CKMASK, which by R34 and R36 read 0, is the model's choice (log 29). -/
def Obligations.RegisterReadsFollowTheMap : Prop :=
  ∀ s : State,
    let gives (off : Byte) (v : Byte) : Prop := hostRead off s = { s with env.hostReads := s.env.hostReads ++ [v] }
    let flag (x : Bool) (n : Nat) : Nat := if x then n else 0
    let status : Byte :=
      BitVec.ofNat 8 (flag s.reg.busy 1 + flag s.reg.done 2 + flag s.reg.ovr 4 + flag s.link.attached 8)
    (gives 0x02 status ∧ gives 0x03 s.reg.result ∧ gives 0x04 s.reg.detail ∧
      gives 0x0C (BitVec.ofNat 8 s.reg.fwPhase.toNat) ∧ gives 0x0D (BitVec.ofNat 8 (s.reg.chunk.toNat / 256)) ∧
      gives 0x0E (BitVec.ofNat 8 (s.reg.chunk.toNat % 256)) ∧ gives 0x0F (if s.reg.rts then 1 else 0) ∧
      gives 0x10 (BitVec.ofNat 8 (s.reg.linkBaud.toNat / 16777216)) ∧
      gives 0x11 (BitVec.ofNat 8 (s.reg.linkBaud.toNat / 65536 % 256)) ∧
      gives 0x12 (BitVec.ofNat 8 (s.reg.linkBaud.toNat / 256 % 256)) ∧
      gives 0x13 (BitVec.ofNat 8 (s.reg.linkBaud.toNat % 256))) ∧
    (s.reg.busy = false →
      gives 0x00 s.reg.cmd ∧ gives 0x01 s.reg.arg ∧ gives 0x05 (BitVec.ofNat 8 s.reg.sel.toNat) ∧ gives 0x06 s.reg.idbyte ∧
      gives 0x07 (BitVec.ofNat 8 s.reg.ckmask.toNat) ∧ gives 0x08 s.reg.found0 ∧ gives 0x09 s.reg.exp0 ∧
      gives 0x0A s.reg.found1 ∧ gives 0x0B s.reg.exp1 ∧ gives 0x14 (BitVec.ofNat 8 (s.reg.fuLen.toNat / 256)) ∧
      gives 0x15 (BitVec.ofNat 8 (s.reg.fuLen.toNat % 256)) ∧ gives 0x16 (BitVec.ofNat 8 (s.reg.fwLen.toNat / 256)) ∧
      gives 0x17 (BitVec.ofNat 8 (s.reg.fwLen.toNat % 256))) ∧
    ∀ off : Byte, ∃ (v : Byte) (n : Nat),
      hostRead off s = { s with env.hostReads := s.env.hostReads ++ [v], env.freeReads := n }

/-- The host's writes while BUSY = 0 to anything but CMD: the operand registers byte by byte, every other register not at all
(10_state.md R26, R42, R43), a buffer byte inside EDID_BUF, FW_BUF or FRAME_BUF, no other (20_memory.md R61). A read beyond a
buffer's size gives 0x00; that it does so also while BUSY = 1, where R49 lets buffer reads give any value, is the model's choice
(log 24). -/
def Obligations.HostWritesReachOnlyWritableStorage : Prop :=
  ∀ (s : State) (v : Byte),
    (s.reg.busy = false →
      hostWrite 0x01 v s = { s with reg.arg := v } ∧
        hostWrite 0x14 v s = { s with reg.fuLen := BitVec.ofNat 16 (v.toNat * 256 + s.reg.fuLen.toNat % 256) } ∧
        hostWrite 0x15 v s = { s with reg.fuLen := BitVec.ofNat 16 (s.reg.fuLen.toNat / 256 * 256 + v.toNat) } ∧
        hostWrite 0x16 v s = { s with reg.fwLen := BitVec.ofNat 16 (v.toNat * 256 + s.reg.fwLen.toNat % 256) } ∧
        hostWrite 0x17 v s = { s with reg.fwLen := BitVec.ofNat 16 (s.reg.fwLen.toNat / 256 * 256 + v.toNat) } ∧
        ∀ off : Byte, 0x03 ≤ off.toNat → off.toNat ≤ 0x13 → hostWrite off v s = s) ∧
    ∀ (b : Buf) (a : Nat),
      (bufSize b ≤ a → hostBufRead b a s = { s with env.hostReads := s.env.hostReads ++ [0x00] }) ∧
        (s.reg.busy = false → (bufSize b ≤ a ∨ b = .rx ∨ b = .info) → hostBufWrite b a v s = s) ∧
        (s.reg.busy = false → a < bufSize b → b ≠ .rx → b ≠ .info →
          hostBufWrite b a v s = { s with buf := s.buf.setByte b a v })

/-- 20_memory.md R62: a byte written by the host or the engine reads back, and every other byte of every buffer is as it was,
written before or not; the host's writes and reads of a buffer have no other effect (while BUSY = 1 a write is refused and a
read gives any value, 10_state.md R48, R49). -/
def Obligations.BufferBytesArePlainStorage : Prop :=
  (∀ (m : Buffers) (b : Buf) (a : Nat) (v : Byte), a < bufSize b → (m.setByte b a v).byteAt b a = v) ∧
    (∀ (m : Buffers) (b c : Buf) (a x : Nat) (v : Byte), ¬(c = b ∧ x = a) →
      (m.setByte b a v).byteAt c x = m.byteAt c x) ∧
    (∀ (m : Buffers) (b : Buf) (a : Nat) (bs : Bytes), a + bs.length ≤ bufSize b →
      (m.setBytes b a bs).bytes b a bs.length = bs ∧
        ∀ (c : Buf) (x : Nat), ¬(c = b ∧ a ≤ x ∧ x < a + bs.length) →
          (m.setBytes b a bs).byteAt c x = m.byteAt c x) ∧
    ∀ (s : State) (b : Buf) (a : Nat),
      (s.reg.busy = false → a < bufSize b →
        hostBufRead b a s = { s with env.hostReads := s.env.hostReads ++ [s.buf.byteAt b a] }) ∧
      (∀ v : Byte, s.reg.busy = false → a < bufSize b → b ≠ .rx → b ≠ .info →
        hostBufWrite b a v s = { s with buf := s.buf.setByte b a v }) ∧
      ∃ (v : Byte) (n : Nat), hostBufRead b a s = { s with env.hostReads := s.env.hostReads ++ [v], env.freeReads := n }

/-! ## Encodings -/

/-- The codec: every instruction's code word decodes to it in its own space, whatever bytes follow. The two-byte form of a host
command is the model's choice (log 26). -/
def Obligations.DecodeInvertsEncode : Prop :=
  ∀ (i : Instr) (rest : Bytes), decode i.space (encode i ++ rest) = .ok i

/-- A decoded word is its row's own: it re-encodes to the bytes it was read from. Only the eight host commands that do not read
OPARG (30_encoding.md R92) may drop the operand byte. That a host command's word has a second byte, and that those eight write it
as 0x00, is the model's choice (log 26). -/
def Obligations.DecodedWordsReencode : Prop :=
  ∀ (sp : Space) (bs : Bytes) (i : Instr), decode sp bs = .ok i →
    i.space = sp ∧
      (sp ≠ .host → encode i <+: bs) ∧
      (sp = .host →
        (encode i).head? = bs.head? ∧
          ((encode i)[1]? = bs[1]? ∨
            ((encode i)[1]? = some 0x00 ∧
              i ∈ [.edidIsvalid, .fwValidate, .cecConnect, .cecDisconnect, .identify, .readEdid, .writeEdid, .fwUpdate])))

/-- A few words written out from the tables of 30_encoding.md R91, R95, R96 and R99. -/
def Obligations.WordsOfTheTablesDecode : Prop :=
  decode .host [0x10, 0x02] = .ok (.select 0x02) ∧ decode .host [0x20, 0x00] = .ok .fwUpdate ∧
    decode .device [0x0C] = .ok .devReadDevice ∧ decode .inbound [0x05] = .ok .devReady ∧
    decode .packet [0x46, 0x55, 0xA3] = .ok .fuReqPart2 ∧ decode .packet [0x46, 0x55, 0x23] = .ok .fuRepPart2 ∧
    decode .device [0x06] = .error (.unusedDeviceByte 0x06) ∧ decode .host [0x0F, 0x00] = .error (.reservedCommand 0x0F)

/-- 30_encoding.md R93: a reserved code is accepted, and its first step ends with ILLEGAL_COMMAND(BAD_CMD); an illegal operand
ends the same way with BAD_ARG, an FU_LEN out of range with BAD_LENGTH. Nothing but RESULT, DETAIL and STATUS is written. -/
def Obligations.ReservedCodesAndIllegalOperandsEndAtOnce : Prop :=
  ∀ (c : Byte) (k : Nat) (s : State), s.seq = .busy c k .start →
    let ends (d : Byte) : State :=
      { s with reg.result := 0x50, reg.detail := d, reg.busy := false, reg.done := true, seq := .idle }
    ((c = 0x00 ∨ (0x06 ≤ c.toNat ∧ c.toNat ≤ 0x0F) ∨ (0x16 ≤ c.toNat ∧ c.toNat ≤ 0x1F) ∨ 0x21 ≤ c.toNat) →
      engineStep s = .next (ends 0x30) ∧
        ∀ s0 : State, s0.reg.busy = false → hostWrite 0x00 c s0 = accept c s0) ∧
    (c = 0x01 → s.int.oparg ≠ 0x01 → s.int.oparg ≠ 0x02 → engineStep s = .next (ends 0x31)) ∧
    (c = 0x10 → 4 < s.int.oparg.toNat → engineStep s = .next (ends 0x31)) ∧
    (c = 0x04 → (s.reg.fuLen.toNat < 3 ∨ 255 < s.reg.fuLen.toNat) → engineStep s = .next (ends 0x32)) ∧
    (c = 0x05 → (s.reg.fuLen.toNat < 4 ∨ 256 < s.reg.fuLen.toNat) → engineStep s = .next (ends 0x32))

/-- 42_fu_framer.md R190: the checksum byte is the value of the source's formula reduced to a byte, and the byte that makes the
whole sum 0 mod 256. -/
def Obligations.ChecksumByteMakesTheSumZero : Prop :=
  ∀ bs : Bytes,
    (fuCk bs).toNat = (256 - byteSum bs % 256) % 256 ∧
      ∀ c : Byte, fuCk bs = c ↔ (byteSum bs + c.toNat) % 256 = 0

/-- 42_fu_framer.md R192: a frame passes when its last byte is the checksum of those before it, exactly when it sums to 0. -/
def Obligations.FramePassesExactlyWhenItsSumIsZero : Prop :=
  ∀ (t : Bytes) (c : Byte),
    (fuCkOk (t ++ [c]) = true ↔ c = fuCk t) ∧ (fuCkOk (t ++ [c]) = true ↔ byteSum (t ++ [c]) % 256 = 0)

/-- 42_fu_framer.md R191, R193: every string with its checksum appended passes; a built frame has length `len(p) + 4` and is a
passing reply to the request whose opcode is its own XOR 0x80, in every phase (30_encoding.md R98; R199). -/
def Obligations.BuiltFramesPassTheReplyCheck : Prop :=
  (∀ t : Bytes, fuCkOk (t ++ [fuCk t]) = true) ∧
    ∀ (op : Byte) (p : Bytes) (enter : Bool),
      (fuFrame op p).length = p.length + 4 ∧ fuCkOk (fuFrame op p) = true ∧
        fuFrame op p = [0x46, 0x55, op] ++ p ++ [fuCk ([0x46, 0x55, op] ++ p)] ∧
        fuReplyCheck (fuFrame op p) (op ^^^ 0x80) enter = none

/-- 42_fu_framer.md R196: the word-sum of a byte string of even length, and the one taken over the image, 5440 words, which the
last check of an image (R197) compares with the word stored after them. -/
def Obligations.WordSumAddsBigEndianWords : Prop :=
  (∀ bs : Bytes, bs.length % 2 = 0 →
    wordsum bs =
      ((List.range (bs.length / 2)).map fun j => (bs.getD (2 * j) 0).toNat * 256 + (bs.getD (2 * j + 1) 0).toNat).sum % 65536) ∧
  ∀ s : State, s.reg.fwLen = 0x2A82 → s.bytes .fw 0 s.params.fwTag.length = s.params.fwTag →
    (imageCheck s = none ↔
      ((List.range 5440).map fun j => (s.byteAt .fw (2 * j)).toNat * 256 + (s.byteAt .fw (2 * j + 1)).toNat).sum % 65536 =
        (s.byteAt .fw 0x2A80).toNat * 256 + (s.byteAt .fw 0x2A81).toNat)

/-- 42_fu_framer.md R199: the checks of a reply in their order. -/
def Obligations.ReplyCheckReportsTheFirstFailure : Prop :=
  ∀ (r : Bytes) (reqop : Byte) (enter : Bool),
    (¬(r[0]? = some 0x46 ∧ r[1]? = some 0x55) → fuReplyCheck r reqop enter = some (.readError, .badMagic)) ∧
      (r[0]? = some 0x46 → r[1]? = some 0x55 →
        (fuCkOk r = false → fuReplyCheck r reqop enter = some (.readError, .badChecksum)) ∧
          (fuCkOk r = true →
            (r[2]? ≠ some (reqop ^^^ 0x80) →
              fuReplyCheck r reqop enter =
                if enter then some (.readError, .badOpcode) else some (.writeError, .rejOpcode)) ∧
              (r[2]? = some (reqop ^^^ 0x80) → fuReplyCheck r reqop enter = none)))

/-! ## The engine's step -/

/-- A step runs the instruction decoded at the sequencer position, on an empty agenda and on a move of the engine; a reserved
code there ends the operation (30_encoding.md R93; log 28). In IDLE the engine waits (60_exceptions.md R281). Every other move of
the agenda (log 3) does what its agent does: the host's accesses by offset, by buffer address, by platform address (20_memory.md
R67; where two windows overlap the choice is log 22's) and WAITDONE (30_encoding.md R109; log 18), the device's bytes, the
platform's inputs, reset. -/
def Obligations.StepRunsTheDecodedInstruction : Prop :=
  ∀ s : State,
    (∀ (sp : Space) (bs : Bytes) (i : Instr), fetch s = some (sp, bs) → decode sp bs = .ok i →
      (s.env.agenda = [] → step s = exec i s) ∧
        ∀ rest, s.env.agenda = .engine :: rest → step s = exec i { s with env.agenda := rest }) ∧
    (∀ (sp : Space) (bs : Bytes) (c : Byte), fetch s = some (sp, bs) → decode sp bs = .error (.reservedCommand c) →
      (s.env.agenda = [] → step s = .next (raise .illegalCommand .badCmd s)) ∧
        ∀ rest, s.env.agenda = .engine :: rest →
          step s = .next (raise .illegalCommand .badCmd { s with env.agenda := rest })) ∧
    (s.seq = .idle → s.env.agenda = [] → step s = .next s) ∧
    ∀ rest : List Event,
      let s' : State := { s with env.agenda := rest }
      let map : PlatformMap := s.params.platformMap
      let window : Buf → Nat
        | .edid => map.edid
        | .fw => map.fw
        | .frame => map.frame
        | .rx => map.rx
        | .info => map.info
      let inRegs (addr : Nat) : Prop := map.regs ≤ addr ∧ addr < map.regs + 256
      let inBuf (b : Buf) (addr : Nat) : Prop := window b ≤ addr ∧ addr < window b + bufSize b
      (∀ off v : Byte, s.env.agenda = .write off v :: rest → step s = .next (hostWrite off v s')) ∧
      (∀ off : Byte, s.env.agenda = .read off :: rest → step s = .next (hostRead off s')) ∧
      (∀ (b : Buf) (a : Nat) (v : Byte), s.env.agenda = .bufWrite b a v :: rest → step s = .next (hostBufWrite b a v s')) ∧
      (∀ (b : Buf) (a : Nat), s.env.agenda = .bufRead b a :: rest → step s = .next (hostBufRead b a s')) ∧
      (∀ off v : Byte, s.env.agenda = .busWrite (map.regs + off.toNat) v :: rest → step s = .next (hostWrite off v s')) ∧
      (∀ off : Byte, s.env.agenda = .busRead (map.regs + off.toNat) :: rest → step s = .next (hostRead off s')) ∧
      (∀ (b : Buf) (a : Nat), a < bufSize b → ¬inRegs (window b + a) → (∀ c, c ≠ b → ¬inBuf c (window b + a)) →
        (∀ v : Byte, s.env.agenda = .busWrite (window b + a) v :: rest → step s = .next (hostBufWrite b a v s')) ∧
          (s.env.agenda = .busRead (window b + a) :: rest → step s = .next (hostBufRead b a s'))) ∧
      (∀ addr : Nat, ¬inRegs addr → (∀ b, ¬inBuf b addr) →
        (∀ v : Byte, s.env.agenda = .busWrite addr v :: rest → step s = .next s') ∧
          (s.env.agenda = .busRead addr :: rest → step s = .next s')) ∧
      (s.env.agenda = .waitDone :: rest →
        (s.reg.done = true → step s = .next (hostRead 0x02 s')) ∧
          (s.reg.done = false →
            step s = .next { hostRead 0x02 s' with env.agenda := .engine :: .waitDone :: rest })) ∧
      (∀ bs : Bytes, s.env.agenda = .device bs :: rest → step s = .next { s' with link.rq := s.link.rq ++ bs }) ∧
      (∀ level : Bool, s.env.agenda = .attach level :: rest → step s = .next { s' with link.attached := level }) ∧
      (∀ (baud : BitVec 32) (rts : Bool), s.env.agenda = .configure baud rts :: rest →
        step s = .next { s' with link.lineBaud := baud, link.lineRts := rts }) ∧
      ∀ n : Nat, s.env.agenda = .reset n :: rest → step s = .next (applyReset n s')

/-- What stands at the sequencer position (10_state.md R24; log 2, log 25, log 26): a device byte at its transmission, READY at a
poll's read, a packet where it is built, sent, read or checked, and the host command with its latched operand at the start and at
every other place. -/
def Obligations.FetchFollowsTheSequencer : Prop :=
  ∀ (s : State) (op : Byte) (k : Nat) (p : Point), s.seq = .busy op k p →
    (p = .start → fetch s = some (.host, [op, s.int.oparg])) ∧
      (p = .send → op = 0x10 → fetch s = some (.device, [0x01 + s.int.oparg])) ∧
      (p = .send → op = 0x11 → fetch s = some (.device, [0x08])) ∧
      (p = .send → op = 0x12 → fetch s = some (.device, [0x09])) ∧
      (p = .send → op = 0x13 → fetch s = some (.device, [0x0B])) ∧
      (p = .send → op = 0x14 → fetch s = some (.device, [if s.reg.sel = 4 then 0x07 else 0x0C])) ∧
      (p = .send → op = 0x15 → fetch s = some (.device, [0x0A])) ∧
      (p = .sendNext → fetch s = some (.device, [0x05])) ∧
      (∀ failed aft, p = .pollRead failed aft → fetch s = some (.inbound, [0x05])) ∧
      (∀ st, p = .build st ∨ p = .request st → fetch s = some (.packet, [0x46, 0x55, st.reqOp])) ∧
      (∀ st, p = .reply st ∨ (∃ r, p = .gotReply st r) → fetch s = some (.packet, [0x46, 0x55, st.reqOp ^^^ 0x80])) ∧
      (p ≠ .send → p ≠ .sendNext → (∀ failed aft, p ≠ .pollRead failed aft) →
        (∀ st, p ≠ .build st ∧ p ≠ .request st ∧ p ≠ .reply st ∧ ∀ r, p ≠ .gotReply st r) →
        fetch s = some (.host, [op, s.int.oparg]))

/-! ## EDID model -/

/-- EDID_CHECKSUMS (40_edid_model.md R131) with the evaluation of R132: both blocks' mask bits, stored and expected bytes from
the sums; a block fails exactly when its stored byte is not the expected one; nothing else is written. A block outside the
count records 0 and 0. That evaluation and end are one step is the model's choice (log 1). -/
def Obligations.EdidChecksumsEvaluatesEveryBlock : Prop :=
  ∀ (nblk : Byte) (k : Nat) (s : State), s.seq = .busy 0x01 k .start →
    let blk (b : Nat) : Bytes := s.bytes .edid (128 * b) 128
    let bad (b : Nat) : Prop := byteSum (blk b) % 256 ≠ 0
    let expected (b : Nat) : Byte := BitVec.ofNat 8 ((256 - byteSum ((blk b).take 127) % 256) % 256)
    (∀ b : Nat, bad b ↔ s.byteAt .edid (128 * b + 127) ≠ expected b) ∧
    (nblk = 1 ∨ nblk = 2 →
      ∃ t : State, exec (.edidChecksums nblk) s = .next t ∧
        (t.reg.ckmask.getLsbD 0 = true ↔ bad 0) ∧ (t.reg.ckmask.getLsbD 1 = true ↔ nblk = 2 ∧ bad 1) ∧
        t = { s with
              reg.ckmask := t.reg.ckmask
              reg.found0 := s.byteAt .edid 0x7F
              reg.exp0 := expected 0
              reg.found1 := if nblk = 2 then s.byteAt .edid 0xFF else 0x00
              reg.exp1 := if nblk = 2 then expected 1 else 0x00
              reg.result := if t.reg.ckmask = 0 then 0x00 else 0x10
              reg.detail := if t.reg.ckmask = 0 then 0x00 else 0x02
              reg.busy := false, reg.done := true, seq := .idle }) ∧
    (nblk ≠ 1 → nblk ≠ 2 →
      exec (.edidChecksums nblk) s =
        .next { s with reg.result := 0x50, reg.detail := 0x31, reg.busy := false, reg.done := true, seq := .idle })

/-- EDID_ISVALID (40_edid_model.md R133) with `is_valid()` (R134): too many extensions decides before any sum. That the operation
is one step is the model's choice (log 1). -/
def Obligations.EdidIsvalidChecksCountThenSums : Prop :=
  ∀ (k : Nat) (s : State), s.seq = .busy 0x02 k .start →
    let ext : Nat := (s.byteAt .edid 0x7E).toNat
    let blk (b : Nat) : Bytes := s.bytes .edid (128 * b) 128
    let bad (b : Nat) : Prop := byteSum (blk b) % 256 ≠ 0
    let expected (b : Nat) : Byte := BitVec.ofNat 8 ((256 - byteSum ((blk b).take 127) % 256) % 256)
    (2 ≤ ext →
      exec .edidIsvalid s =
        .next { s with
                reg.ckmask := 0, reg.found0 := 0, reg.exp0 := 0, reg.found1 := 0, reg.exp1 := 0
                reg.result := 0x10, reg.detail := 0x01, reg.busy := false, reg.done := true, seq := .idle }) ∧
    (ext ≤ 1 →
      ∃ t : State, exec .edidIsvalid s = .next t ∧
        (t.reg.ckmask.getLsbD 0 = true ↔ bad 0) ∧ (t.reg.ckmask.getLsbD 1 = true ↔ ext = 1 ∧ bad 1) ∧
        t = { s with
              reg.ckmask := t.reg.ckmask
              reg.found0 := s.byteAt .edid 0x7F
              reg.exp0 := expected 0
              reg.found1 := if ext = 1 then s.byteAt .edid 0xFF else 0x00
              reg.exp1 := if ext = 1 then expected 1 else 0x00
              reg.result := if t.reg.ckmask = 0 then 0x00 else 0x10
              reg.detail := if t.reg.ckmask = 0 then 0x00 else 0x02
              reg.busy := false, reg.done := true, seq := .idle })

/-- 40_edid_model.md R135: one byte of a valid block changed to a different value makes that block's mask bit 1. -/
def Obligations.OneCorruptedByteFailsItsBlock : Prop :=
  ∀ (s : State) (b i : Nat) (v : Byte), b < 2 → i < 128 →
    byteSum (s.bytes .edid (128 * b) 128) % 256 = 0 → v ≠ s.byteAt .edid (128 * b + i) →
    (ckMask 2 { s with buf := s.buf.setByte .edid (128 * b + i) v }).getLsbD b = true

/-! ## Framer -/

/-- FW_VALIDATE (42_fu_framer.md R198) with `image_check()` (R197): length, tag, word-sum, the first failure decides. That
the operation is one step is the model's choice (log 1). -/
def Obligations.FwValidateReportsTheFirstFailure : Prop :=
  ∀ (k : Nat) (s : State), s.seq = .busy 0x03 k .start →
    let ends (r d : Byte) : State :=
      { s with reg.result := r, reg.detail := d, reg.busy := false, reg.done := true, seq := .idle }
    let tagOk : Prop := s.bytes .fw 0 s.params.fwTag.length = s.params.fwTag
    let sumOk : Prop :=
      wordsum (s.bytes .fw 0 0x2A80) = (s.byteAt .fw 0x2A80).toNat * 256 + (s.byteAt .fw 0x2A81).toNat
    (s.reg.fwLen ≠ 0x2A82 → exec .fwValidate s = .next (ends 0x10 0x03)) ∧
      (s.reg.fwLen = 0x2A82 → ¬tagOk → exec .fwValidate s = .next (ends 0x10 0x04)) ∧
      (s.reg.fwLen = 0x2A82 → tagOk → ¬sumOk → exec .fwValidate s = .next (ends 0x10 0x05)) ∧
      (s.reg.fwLen = 0x2A82 → tagOk → sumOk → exec .fwValidate s = .next (ends 0x00 0x00))

/-- FU_ENCODE (42_fu_framer.md R194): the frame stands in FRAME_BUF, FU_LEN counts its checksum, nothing else is written.
That the operation is one step is the model's choice (log 1). -/
def Obligations.FuEncodeBuildsTheFrame : Prop :=
  ∀ (opcode : Byte) (k : Nat) (s : State), s.seq = .busy 0x04 k .start →
    let len : Nat := s.reg.fuLen.toNat
    (3 ≤ len → len ≤ 255 →
      ∃ t : State, exec (.fuEncode opcode) s = .next t ∧
        t = { s with buf := t.buf, reg.fuLen := s.reg.fuLen + 1, reg.result := 0x00, reg.detail := 0x00
                     reg.busy := false, reg.done := true, seq := .idle } ∧
        t.bytes .frame 0 (len + 1) = fuFrame opcode (s.bytes .frame 3 (len - 3)) ∧
        ∀ (c : Buf) (x : Nat), ¬(c = .frame ∧ (x < 3 ∨ x = len)) → t.byteAt c x = s.byteAt c x) ∧
    (len < 3 ∨ 255 < len →
      exec (.fuEncode opcode) s =
        .next { s with reg.result := 0x50, reg.detail := 0x32, reg.busy := false, reg.done := true, seq := .idle })

/-- FU_DECODE (42_fu_framer.md R195): the first failing check decides; only RESULT, DETAIL and STATUS are written.
That the operation is one step is the model's choice (log 1). -/
def Obligations.FuDecodeReportsTheFirstFailure : Prop :=
  ∀ (request : Byte) (k : Nat) (s : State), s.seq = .busy 0x05 k .start →
    let len : Nat := s.reg.fuLen.toNat
    let f : Bytes := s.bytes .frame 0 len
    let ends (r d : Byte) : State :=
      { s with reg.result := r, reg.detail := d, reg.busy := false, reg.done := true, seq := .idle }
    let magic : Prop := s.byteAt .frame 0 = 0x46 ∧ s.byteAt .frame 1 = 0x55
    let echoed : Prop := s.byteAt .frame 2 = request ^^^ 0x80
    (len < 4 ∨ 256 < len → exec (.fuDecode request) s = .next (ends 0x50 0x32)) ∧
      (4 ≤ len → len ≤ 256 →
        (¬magic → exec (.fuDecode request) s = .next (ends 0x30 0x13)) ∧
          (magic → byteSum f % 256 ≠ 0 → exec (.fuDecode request) s = .next (ends 0x30 0x14)) ∧
          (magic → byteSum f % 256 = 0 → ¬echoed → exec (.fuDecode request) s = .next (ends 0x30 0x15)) ∧
          (magic → byteSum f % 256 = 0 → echoed → exec (.fuDecode request) s = .next (ends 0x00 0x00)))

/-- The framer's two operations agree (42_fu_framer.md R193, R194, R195): a frame that FU_ENCODE built is accepted by FU_DECODE
as the answer to the request whose opcode is the frame's XOR 0x80, from any state that still holds the frame and its length. -/
def Obligations.EncodedFramesDecode : Prop :=
  ∀ (opcode : Byte) (k k' : Nat) (s t u : State), s.seq = .busy 0x04 k .start →
    3 ≤ s.reg.fuLen.toNat → s.reg.fuLen.toNat ≤ 255 → exec (.fuEncode opcode) s = .next t →
    u.seq = .busy 0x05 k' .start → u.buf = t.buf → u.reg.fuLen = t.reg.fuLen →
    exec (.fuDecode (opcode ^^^ 0x80)) u =
      .next { u with reg.result := 0x00, reg.detail := 0x00, reg.busy := false, reg.done := true, seq := .idle }

/-! ## Device commands -/

/-- The steps of SELECT that are its own (41_device_commands.md R152); its device byte is a step of the byte's row. One step per
primitive and per internal update is 00_scope.md R8; which assignments share an update is the model's choice (log 1), here and
in the statements below. -/
def Obligations.SelectStepsComplete : Prop :=
  ∀ (p : Byte) (k : Nat) (s : State),
    let ends (r d : Byte) : State :=
      { s with reg.result := r, reg.detail := d, reg.busy := false, reg.done := true, seq := .idle }
    (s.seq = .busy 0x10 k .start →
      (4 < p.toNat → exec (.select p) s = .next (ends 0x50 0x31)) ∧
        (p = 4 → exec (.select p) s = .next { ends 0x00 0x00 with reg.sel := 4 }) ∧
        (p.toNat ≤ 3 → s.link.attached = false → exec (.select p) s = .next (ends 0x40 0x00)) ∧
        (p.toNat ≤ 3 → s.link.attached = true → exec (.select p) s = .next { s with seq := .busy 0x10 k .send })) ∧
    (s.seq = .busy 0x10 k .settle →
      exec (.select p) s =
        .next { s with link.history := s.link.history ++ [.sleep 1000], seq := .busy 0x10 (k + 1) .setSel }) ∧
    (s.seq = .busy 0x10 k .setSel → p.toNat ≤ 3 →
      exec (.select p) s = .next { ends 0x00 0x00 with reg.sel := BitVec.ofNat 3 p.toNat }) ∧
    ∀ r d, s.seq = .busy 0x10 k (.ending r d) → exec (.select p) s = .next (ends (resultByte r) (detailByte d))

/-- SELECT from acceptance to its end (41_device_commands.md R152), the position being OPARG and no other agent moving. -/
def Obligations.SelectOperationRunsToItsEnd : Prop :=
  ∀ (k : Nat) (s : State), s.seq = .busy 0x10 k .start → s.env.agenda = [] →
    let p : Byte := s.int.oparg
    let ends (r d : Byte) : State :=
      { s with reg.result := r, reg.detail := d, reg.busy := false, reg.done := true, seq := .idle }
    (4 < p.toNat → ∃ n, Host.Core.run core n s = .next (ends 0x50 0x31)) ∧
      (p = 4 → ∃ n, Host.Core.run core n s = .next { ends 0x00 0x00 with reg.sel := 4 }) ∧
      (p.toNat ≤ 3 → s.link.attached = false → ∃ n, Host.Core.run core n s = .next (ends 0x40 0x00)) ∧
      (p.toNat ≤ 3 → s.link.attached = true → s.answer.fails = true →
        ∃ n, Host.Core.run core n s =
          .next { ends 0x20 0x20 with
                  link.tl := s.link.tl ++ [0x01 + p].take s.answer.count
                  link.history := s.link.history ++ [.tx [0x01 + p] false]
                  env := s.drawn.env }) ∧
      (p.toNat ≤ 3 → s.link.attached = true → s.answer.fails = false →
        ∃ n, Host.Core.run core n s =
          .next { ends 0x00 0x00 with
                  reg.sel := BitVec.ofNat 3 p.toNat
                  link.tl := s.link.tl ++ [0x01 + p]
                  link.history := s.link.history ++ [.tx [0x01 + p] true, .sleep 1000]
                  env := s.drawn.env })

/-- The steps of CEC_CONNECT and CEC_DISCONNECT that are their own (41_device_commands.md R153, R154, R160). -/
def Obligations.CecStepsComplete : Prop :=
  ∀ (i : Instr) (op : Byte) (k : Nat) (s : State), (i = .cecConnect ∧ op = 0x11) ∨ (i = .cecDisconnect ∧ op = 0x12) →
    let ends (r d : Byte) : State :=
      { s with reg.result := r, reg.detail := d, reg.busy := false, reg.done := true, seq := .idle }
    (s.seq = .busy op k .start →
      (s.link.attached = false → exec i s = .next (ends 0x40 0x00)) ∧
        (s.link.attached = true → exec i s = .next { s with seq := .busy op k .send })) ∧
    (s.seq = .busy op k .settle →
      exec i s = .next { s with link.history := s.link.history ++ [.sleep 1000]
                                seq := .busy op (k + 1) (.ending .ok .none) }) ∧
    ∀ r d, s.seq = .busy op k (.ending r d) → exec i s = .next (ends (resultByte r) (detailByte d))

/-- CEC_CONNECT and CEC_DISCONNECT from acceptance to their end (41_device_commands.md R153, R154), no other agent moving. -/
def Obligations.CecOperationsRunToTheirEnd : Prop :=
  ∀ (op b : Byte) (k : Nat) (s : State), (op = 0x11 ∧ b = 0x08) ∨ (op = 0x12 ∧ b = 0x09) →
    s.seq = .busy op k .start → s.env.agenda = [] →
    let ends (r d : Byte) : State :=
      { s with reg.result := r, reg.detail := d, reg.busy := false, reg.done := true, seq := .idle }
    (s.link.attached = false → ∃ n, Host.Core.run core n s = .next (ends 0x40 0x00)) ∧
      (s.link.attached = true → s.answer.fails = true →
        ∃ n, Host.Core.run core n s =
          .next { ends 0x20 0x20 with
                  link.tl := s.link.tl ++ [b].take s.answer.count
                  link.history := s.link.history ++ [.tx [b] false]
                  env := s.drawn.env }) ∧
      (s.link.attached = true → s.answer.fails = false →
        ∃ n, Host.Core.run core n s =
          .next { ends 0x00 0x00 with
                  link.tl := s.link.tl ++ [b]
                  link.history := s.link.history ++ [.tx [b] true, .sleep 1000]
                  env := s.drawn.env })

/-- The steps of IDENTIFY that are its own (41_device_commands.md R155). -/
def Obligations.IdentifyStepsComplete : Prop :=
  ∀ (k : Nat) (s : State),
    let ends (r d : Byte) : State :=
      { s with reg.result := r, reg.detail := d, reg.busy := false, reg.done := true, seq := .idle }
    (s.seq = .busy 0x13 k .start →
      (s.link.attached = false → exec .identify s = .next (ends 0x40 0x00)) ∧
        (s.link.attached = true → exec .identify s = .next { s with seq := .busy 0x13 k .send })) ∧
    (s.seq = .busy 0x13 k .settle →
      exec .identify s =
        .next { s with link.history := s.link.history ++ [.sleep 1000], seq := .busy 0x13 (k + 1) .receive }) ∧
    (s.seq = .busy 0x13 k .receive →
      (s.link.rq = [] →
        exec .identify s =
          .next { s with link.history := s.link.history ++ [.rxb none]
                         seq := .busy 0x13 (k + 1) (.ending .readError .noReply) }) ∧
        ∀ (b : Byte) (rest : Bytes), s.link.rq = b :: rest →
          exec .identify s =
            .next { s with link.rq := rest, link.history := s.link.history ++ [.rxb (some b)]
                           seq := .busy 0x13 (k + 1) (.storeId b) }) ∧
    (∀ b : Byte, s.seq = .busy 0x13 k (.storeId b) → exec .identify s = .next { ends 0x00 0x00 with reg.idbyte := b }) ∧
    ∀ r d, s.seq = .busy 0x13 k (.ending r d) → exec .identify s = .next (ends (resultByte r) (detailByte d))

/-- IDENTIFY from acceptance to its end (41_device_commands.md R155), no other agent moving: the oldest queued byte, whatever
it is, becomes IDBYTE and the rest stay queued. -/
def Obligations.IdentifyOperationRunsToItsEnd : Prop :=
  ∀ (k : Nat) (s : State), s.seq = .busy 0x13 k .start → s.env.agenda = [] →
    let ends (r d : Byte) : State :=
      { s with reg.result := r, reg.detail := d, reg.busy := false, reg.done := true, seq := .idle }
    (s.link.attached = false → ∃ n, Host.Core.run core n s = .next (ends 0x40 0x00)) ∧
      (s.link.attached = true → s.answer.fails = true →
        ∃ n, Host.Core.run core n s =
          .next { ends 0x20 0x20 with
                  link.tl := s.link.tl ++ [0x0B].take s.answer.count
                  link.history := s.link.history ++ [.tx [0x0B] false]
                  env := s.drawn.env }) ∧
      (s.link.attached = true → s.answer.fails = false → s.link.rq = [] →
        ∃ n, Host.Core.run core n s =
          .next { ends 0x30 0x10 with
                  link.tl := s.link.tl ++ [0x0B]
                  link.history := s.link.history ++ [.tx [0x0B] true, .sleep 1000, .rxb none]
                  env := s.drawn.env }) ∧
      ∀ (b : Byte) (rest : Bytes), s.link.attached = true → s.answer.fails = false → s.link.rq = b :: rest →
        ∃ n, Host.Core.run core n s =
          .next { ends 0x00 0x00 with
                  reg.idbyte := b
                  link.rq := rest
                  link.tl := s.link.tl ++ [0x0B]
                  link.history := s.link.history ++ [.tx [0x0B] true, .sleep 1000, .rxb (some b)]
                  env := s.drawn.env }

/-- The steps of READ_EDID that are its own (41_device_commands.md R156, R157): a block read takes 128 bytes, fails, or holds (log
16); the next step stores them and touches no other byte; the end reports an invalid blob as EDID_INVALID. -/
def Obligations.ReadEdidStepsComplete : Prop :=
  ∀ (k : Nat) (s : State),
    let ends (r d : Byte) : State :=
      { s with reg.result := r, reg.detail := d, reg.busy := false, reg.done := true, seq := .idle }
    (s.seq = .busy 0x14 k .start →
      (s.link.attached = false → exec .readEdid s = .next (ends 0x40 0x00)) ∧
        (s.link.attached = true → exec .readEdid s = .next { s with seq := .busy 0x14 k .send })) ∧
    (∀ failed aft, s.seq = .busy 0x14 k (.pollSleep failed aft) →
      exec .readEdid s =
        .next { s with link.history := s.link.history ++ [.sleep 1000], seq := .busy 0x14 (k + 1) (.pollRead failed aft) }) ∧
    (s.seq = .busy 0x14 k .nextSettle →
      exec .readEdid s =
        .next { s with link.history := s.link.history ++ [.sleep 1000], seq := .busy 0x14 (k + 1) (.readBlock true) }) ∧
    (∀ ext : Bool, s.seq = .busy 0x14 k (.readBlock ext) →
      (s.answer.fails = false → 128 ≤ s.link.rq.length →
        exec .readEdid s =
          .next { s with
                  link.rq := s.link.rq.drop 128
                  link.history := s.link.history ++ [.rxn 128 (some (s.link.rq.take 128))]
                  env := s.drawn.env
                  seq := .busy 0x14 (k + 1) (.storeBlock ext (s.link.rq.take 128)) }) ∧
        (s.answer.fails = false → s.link.rq.length < 128 → exec .readEdid s = .next { s with env := s.drawn.env }) ∧
        (s.answer.fails = true →
          exec .readEdid s =
            .next { s with
                    link.rq := s.link.rq.drop s.answer.count
                    link.history := s.link.history ++ [.rxn 128 none]
                    env := s.drawn.env
                    seq := .busy 0x14 (k + 1) (.ending .readError .linkRead) })) ∧
    (∀ (ext : Bool) (r : Bytes), s.seq = .busy 0x14 k (.storeBlock ext r) → r.length = 128 →
      ∃ t : State, exec .readEdid s = .next t ∧
        t.bytes .edid (if ext then 128 else 0) 128 = r ∧
        (∀ (c : Buf) (x : Nat),
          ¬(c = .edid ∧ (if ext then 128 else 0) ≤ x ∧ x < (if ext then 128 else 0) + 128) →
            t.byteAt c x = s.byteAt c x) ∧
        t = { s with
              buf := t.buf
              seq := .busy 0x14 k (if ext = false ∧ r[0x7E]? ≠ some 0 then .sendNext else .check) }) ∧
    (s.seq = .busy 0x14 k .check →
      exec .readEdid s =
        .next { validEval s with
                reg.result := if validResult s = none then 0x00 else 0x01
                reg.detail := match validResult s with
                  | none => 0x00
                  | some d => detailByte d
                reg.busy := false, reg.done := true, seq := .idle }) ∧
    ∀ r d, s.seq = .busy 0x14 k (.ending r d) → exec .readEdid s = .next (ends (resultByte r) (detailByte d))

/-- READ_EDID from acceptance to its end (41_device_commands.md R156, R157), no other agent moving, READY and the blocks already
queued and the device answering ok. Without an extension block 0 is the queued block and block 1 is neither read nor changed; with
an extension count of 1 or more NEXT_BLOCK is sent and exactly one extension block is stored behind block 0. The result is the
blob's validity (40_edid_model.md R134); a count of 2 or more ends with EDID_INVALID(TOO_MANY_EXTENSIONS). -/
def Obligations.ReadEdidStoresTheQueuedBlock : Prop :=
  ∀ (k : Nat) (s : State) (blk0 rest : Bytes) (as : List Answer),
    s.seq = .busy 0x14 k .start → s.env.agenda = [] → s.link.attached = true → blk0.length = 128 →
    let op : Byte := if s.reg.sel = 4 then 0x07 else 0x0C
    let ended (t : State) (r d : Byte) : Prop :=
      t.seq = .idle ∧ t.reg.busy = false ∧ t.reg.done = true ∧ t.reg.result = r ∧ t.reg.detail = d
    (∀ a1 a2 : Answer, blk0[0x7E]? = some 0 → s.env.answers = a1 :: a2 :: as → a1.fails = false → a2.fails = false →
      s.link.rq = 0x05 :: blk0 ++ rest →
      ∃ (n : Nat) (t : State), Host.Core.run core n s = .next t ∧
        t.bytes .edid 0 128 = blk0 ∧
        (∀ (c : Buf) (x : Nat), ¬(c = .edid ∧ x < 128) → t.byteAt c x = s.byteAt c x) ∧
        (byteSum blk0 % 256 = 0 → ended t 0x00 0x00 ∧ t.reg.ckmask = 0) ∧
        (byteSum blk0 % 256 ≠ 0 → ended t 0x01 0x02 ∧ t.reg.ckmask = 1) ∧
        t.link.rq = rest ∧
        t.link.tl = s.link.tl ++ [op] ∧
        t.link.history = s.link.history ++ [.tx [op] true, .sleep 1000, .rxb (some 0x05), .rxn 128 (some blk0)]) ∧
    ∀ (blk1 : Bytes) (ext : Byte) (a1 a2 a3 a4 : Answer), blk0[0x7E]? = some ext → ext ≠ 0 → blk1.length = 128 →
      s.env.answers = a1 :: a2 :: a3 :: a4 :: as →
      a1.fails = false → a2.fails = false → a3.fails = false → a4.fails = false →
      s.link.rq = 0x05 :: blk0 ++ blk1 ++ rest →
      ∃ (n : Nat) (t : State), Host.Core.run core n s = .next t ∧
        t.bytes .edid 0 128 = blk0 ∧ t.bytes .edid 128 128 = blk1 ∧
        (∀ (c : Buf) (x : Nat), ¬(c = .edid ∧ x < 256) → t.byteAt c x = s.byteAt c x) ∧
        (ext = 1 → byteSum blk0 % 256 = 0 → byteSum blk1 % 256 = 0 → ended t 0x00 0x00 ∧ t.reg.ckmask = 0) ∧
        (ext = 1 → ¬(byteSum blk0 % 256 = 0 ∧ byteSum blk1 % 256 = 0) →
          ended t 0x01 0x02 ∧ (t.reg.ckmask.getLsbD 0 = true ↔ byteSum blk0 % 256 ≠ 0) ∧
            (t.reg.ckmask.getLsbD 1 = true ↔ byteSum blk1 % 256 ≠ 0)) ∧
        (ext ≠ 1 → ended t 0x01 0x01 ∧ t.reg.ckmask = 0) ∧
        t.link.rq = rest ∧
        t.link.tl = s.link.tl ++ [op, 0x05] ∧
        t.link.history = s.link.history ++
          [.tx [op] true, .sleep 1000, .rxb (some 0x05), .rxn 128 (some blk0), .tx [0x05] true, .sleep 1000,
            .rxn 128 (some blk1)]

/-- The steps of WRITE_EDID that are its own (41_device_commands.md R158): the attachment check, the validation before any link
primitive, the waits of its polls, the 128 bytes of a block in one `LinkWrite`, the end. -/
def Obligations.WriteEdidStepsComplete : Prop :=
  ∀ (k : Nat) (s : State),
    let ends (r d : Byte) : State :=
      { s with reg.result := r, reg.detail := d, reg.busy := false, reg.done := true, seq := .idle }
    (s.seq = .busy 0x15 k .start →
      (s.link.attached = false → exec .writeEdid s = .next (ends 0x40 0x00)) ∧
        (s.link.attached = true → exec .writeEdid s = .next { s with seq := .busy 0x15 k .validate })) ∧
    (s.seq = .busy 0x15 k .validate →
      (validResult s = none → exec .writeEdid s = .next { validEval s with seq := .busy 0x15 k .send }) ∧
        ∀ d, validResult s = some d →
          exec .writeEdid s =
            .next { validEval s with reg.result := 0x10, reg.detail := detailByte d, reg.busy := false, reg.done := true
                                     seq := .idle }) ∧
    (∀ failed aft, s.seq = .busy 0x15 k (.pollSleep failed aft) →
      exec .writeEdid s =
        .next { s with link.history := s.link.history ++ [.sleep 1000], seq := .busy 0x15 (k + 1) (.pollRead failed aft) }) ∧
    (∀ ext : Bool, s.seq = .busy 0x15 k (.writeBlock ext) →
      let blk : Bytes := s.bytes .edid (if ext then 128 else 0) 128
      (s.answer.fails = false →
        exec .writeEdid s =
          .next { s with
                  link.tl := s.link.tl ++ blk
                  link.history := s.link.history ++ [.tx blk true]
                  env := s.drawn.env
                  seq := .busy 0x15 (k + 1) (.pollSleep 0 (if ext then .wroteBlock1 else .wroteBlock0)) }) ∧
        (s.answer.fails = true →
          exec .writeEdid s =
            .next { s with
                    link.tl := s.link.tl ++ blk.take s.answer.count
                    link.history := s.link.history ++ [.tx blk false]
                    env := s.drawn.env
                    seq := .busy 0x15 (k + 1) (.ending .writeError .linkWrite) })) ∧
    ∀ r d, s.seq = .busy 0x15 k (.ending r d) → exec .writeEdid s = .next (ends (resultByte r) (detailByte d))

/-- WRITE_EDID from acceptance to its end (41_device_commands.md R158), no other agent moving, for a valid blob with READY queued
for every poll and the device answering ok: exactly the opcode, block 0 and, with an extension count of 1, block 1 are sent, in
that order, each block behind its poll, and EDID_BUF is as it was. -/
def Obligations.WriteEdidSendsOpcodeThenBlock : Prop :=
  ∀ (k : Nat) (s : State) (rest : Bytes) (as : List Answer),
    s.seq = .busy 0x15 k .start → s.env.agenda = [] → s.link.attached = true →
    let blk0 : Bytes := s.bytes .edid 0 128
    let blk1 : Bytes := s.bytes .edid 128 128
    let ended (t : State) : Prop :=
      t.seq = .idle ∧ t.reg.busy = false ∧ t.reg.done = true ∧ t.reg.result = 0x00 ∧ t.reg.detail = 0x00 ∧ t.buf = s.buf ∧
        t.link.rq = rest
    byteSum blk0 % 256 = 0 →
    (∀ a1 a2 : Answer, s.byteAt .edid 0x7E = 0 → s.env.answers = a1 :: a2 :: as → a1.fails = false → a2.fails = false →
      s.link.rq = 0x05 :: 0x05 :: rest →
      ∃ (n : Nat) (t : State), Host.Core.run core n s = .next t ∧ ended t ∧
        t.link.tl = s.link.tl ++ 0x0A :: blk0 ∧
        t.link.history = s.link.history ++
          [.tx [0x0A] true, .sleep 1000, .rxb (some 0x05), .tx blk0 true, .sleep 1000, .rxb (some 0x05)]) ∧
    ∀ a1 a2 a3 : Answer, s.byteAt .edid 0x7E = 1 → byteSum blk1 % 256 = 0 → s.env.answers = a1 :: a2 :: a3 :: as →
      a1.fails = false → a2.fails = false → a3.fails = false → s.link.rq = 0x05 :: 0x05 :: 0x05 :: rest →
      ∃ (n : Nat) (t : State), Host.Core.run core n s = .next t ∧ ended t ∧
        t.link.tl = s.link.tl ++ 0x0A :: (blk0 ++ blk1) ∧
        t.link.history = s.link.history ++
          [.tx [0x0A] true, .sleep 1000, .rxb (some 0x05), .tx blk0 true, .sleep 1000, .rxb (some 0x05),
            .tx blk1 true, .sleep 1000, .rxb (some 0x05)]

/-- The device bytes (30_encoding.md R94, R95): where the operation stands at its transmission, the row's one byte is handed to
the link by one `LinkWrite`; on ioerr a prefix was sent (20_memory.md R72) and the operation goes to its ending step with
WRITE_ERROR(LINK_WRITE). Nothing else changes. -/
def Obligations.DeviceBytesAreSentByOneWrite : Prop :=
  ∀ (i : Instr) (b op : Byte) (p next : Point) (k : Nat) (s : State),
    (i, b, op, p, next) ∈
      [(Instr.devSelDefault, (0x01 : Byte), (0x10 : Byte), Point.send, Point.settle), (.devSel1, 0x02, 0x10, .send, .settle),
        (.devSel2, 0x03, 0x10, .send, .settle), (.devSel3, 0x04, 0x10, .send, .settle),
        (.devNextBlock, 0x05, 0x14, .sendNext, .nextSettle),
        (.devReadDisplay, 0x07, 0x14, .send, .pollSleep 0 .readBlock0), (.devCecOn, 0x08, 0x11, .send, .settle),
        (.devCecOff, 0x09, 0x12, .send, .settle), (.devWrite, 0x0A, 0x15, .send, .pollSleep 0 .writeBlock0),
        (.devIdent, 0x0B, 0x13, .send, .settle), (.devReadDevice, 0x0C, 0x14, .send, .pollSleep 0 .readBlock0)] →
    s.seq = .busy op k p →
    (s.answer.fails = false →
      exec i s = .next { s with
                         link.tl := s.link.tl ++ [b]
                         link.history := s.link.history ++ [.tx [b] true]
                         env := s.drawn.env
                         seq := .busy op (k + 1) next }) ∧
    (s.answer.fails = true →
      exec i s = .next { s with
                         link.tl := s.link.tl ++ [b].take s.answer.count
                         link.history := s.link.history ++ [.tx [b] false]
                         env := s.drawn.env
                         seq := .busy op (k + 1) (.ending .writeError .linkWrite) })

/-- One poll attempt (41_device_commands.md R150): READY goes on with the operation; none or any other byte is consumed and is
one more failed attempt; after the third the operation goes to its ending step with READ_ERROR(POLL_EXHAUSTED). -/
def Obligations.PollAttemptReadsOneByte : Prop :=
  ∀ (op : Byte) (k failed : Nat) (aft : AfterPoll) (s : State), s.seq = .busy op k (.pollRead failed aft) → op ≠ 0x20 →
    let read : State :=
      { s with link.rq := s.link.rq.tail, link.history := s.link.history ++ [.rxb s.link.rq.head?] }
    (s.link.rq.head? = some 0x05 →
      exec .devReady s = .next { read with
        seq := .busy op (k + 1) (match aft with
          | .readBlock0 => .readBlock false
          | .writeBlock0 => .writeBlock false
          | .wroteBlock0 => if s.byteAt .edid 0x7E = 1 then .writeBlock true else .ending .ok .none
          | .wroteBlock1 => .ending .ok .none) }) ∧
      (s.link.rq.head? ≠ some 0x05 → failed < 2 →
        exec .devReady s = .next { read with seq := .busy op (k + 1) (.pollSleep (failed + 1) aft) }) ∧
      (s.link.rq.head? ≠ some 0x05 → 2 ≤ failed →
        exec .devReady s = .next { read with seq := .busy op (k + 1) (.ending .readError .pollExhausted) })

/-- A whole poll (41_device_commands.md R150, R151), no other agent moving: no READY among the three oldest queued bytes means
exactly three sleeps and three reads and READ_ERROR(POLL_EXHAUSTED); a READY at place j < 3 means j + 1 of each, and the
operation goes on. -/
def Obligations.PollMakesAtMostThreeAttempts : Prop :=
  ∀ (op : Byte) (k : Nat) (aft : AfterPoll) (s : State), (op = 0x14 ∨ op = 0x15) → s.seq = .busy op k (.pollSleep 0 aft) →
    s.env.agenda = [] →
    let events (m : Nat) : List LinkEvent :=
      (List.range m).flatMap fun j => [LinkEvent.sleep 1000, .rxb s.link.rq[j]?]
    ((∀ j, j < 3 → s.link.rq[j]? ≠ some 0x05) →
      ∃ n, Host.Core.run core n s =
        .next { s with
                link.rq := s.link.rq.drop 3
                link.history := s.link.history ++ events 3
                reg.result := 0x30, reg.detail := 0x12, reg.busy := false, reg.done := true, seq := .idle }) ∧
    ∀ j, j < 3 → s.link.rq[j]? = some 0x05 → (∀ i, i < j → s.link.rq[i]? ≠ some 0x05) →
      ∃ n, Host.Core.run core n s =
        .next { s with
                link.rq := s.link.rq.drop (j + 1)
                link.history := s.link.history ++ events (j + 1)
                seq := .busy op (k + 2 * (j + 1)) (afterReady aft s) }

/-! ## Link primitives -/

/-- 20_memory.md R72: `ok` hands over the whole string; `ioerr` some prefix of it and raises WRITE_ERROR(LINK_WRITE), whose first
update is the next step (log 1). -/
def Obligations.LinkWriteSendsAllOrAPrefix : Prop :=
  ∀ (bs : Bytes) (op : Byte) (k : Nat) (p next : Point) (s : State), s.seq = .busy op k p →
    (s.answer.fails = false →
      transmit bs next s = { s with
        link.tl := s.link.tl ++ bs, link.history := s.link.history ++ [.tx bs true], env := s.drawn.env
        seq := .busy op (k + 1) next }) ∧
    (s.answer.fails = true →
      ∃ pre, pre <+: bs ∧
        transmit bs next s = raiseNext .writeError .linkWrite { s with
          link.tl := s.link.tl ++ pre, link.history := s.link.history ++ [.tx bs false], env := s.drawn.env
          seq := .busy op (k + 1) p })

/-- 20_memory.md R74: the n oldest bytes, or ioerr with some prefix of the queue removed and READ_ERROR(LINK_READ), or, with
fewer than n bytes and no ioerr, a hold in which only the answered draw is used up (log 16). What is done with the bytes or the
ioerr is the next step's (log 1). -/
def Obligations.LinkReadBytesReturnsFailsOrHolds : Prop :=
  ∀ (n : Nat) (next : Bytes → Point) (op : Byte) (k : Nat) (p : Point) (s : State), s.seq = .busy op k p →
    (s.answer.fails = false → n ≤ s.link.rq.length →
      receiveBytes n next s = { s with
        link.rq := s.link.rq.drop n, link.history := s.link.history ++ [.rxn n (some (s.link.rq.take n))]
        env := s.drawn.env, seq := .busy op (k + 1) (next (s.link.rq.take n)) }) ∧
    (s.answer.fails = true →
      ∃ rq', rq' <:+ s.link.rq ∧
        receiveBytes n next s = raiseNext .readError .linkRead { s with
          link.rq := rq', link.history := s.link.history ++ [.rxn n none], env := s.drawn.env
          seq := .busy op (k + 1) p }) ∧
    (s.answer.fails = false → s.link.rq.length < n → receiveBytes n next s = { s with env := s.drawn.env })

/-- 20_memory.md R73, R76, R77, R78, R79: the byte read, the queue clear, the rate, the RTS level, the sleep. A rate that the
transport refuses changes nothing but the history and raises nothing. -/
def Obligations.ShortPrimitivesDoWhatTheySay : Prop :=
  ∀ (op : Byte) (k : Nat) (p : Point) (s : State), s.seq = .busy op k p →
    (∀ (b : Byte) (rest : Bytes), s.link.rq = b :: rest →
      linkReadByte s = { s with link.rq := rest, link.history := s.link.history ++ [.rxb (some b)]
                                seq := .busy op (k + 1) p }) ∧
    (s.link.rq = [] →
      linkReadByte s = { s with link.history := s.link.history ++ [.rxb none], seq := .busy op (k + 1) p }) ∧
    linkClear s = { s with link.rq := [], link.history := s.link.history ++ [.clr], seq := .busy op (k + 1) p } ∧
    (∀ r : BitVec 32,
      (s.answer.fails = false → linkSetBaud r s = { s with
        reg.linkBaud := r, link.lineBaud := r, link.history := s.link.history ++ [.baud r true], env := s.drawn.env
        seq := .busy op (k + 1) p }) ∧
      (s.answer.fails = true → linkSetBaud r s = { s with
        link.history := s.link.history ++ [.baud r false], env := s.drawn.env, seq := .busy op (k + 1) p })) ∧
    (∀ l : Bool, linkSetRts l s = { s with
      reg.rts := l, link.history := s.link.history ++ [.rts l], link.lineRts := l, seq := .busy op (k + 1) p }) ∧
    ∀ ms : Nat, sleep ms s = { s with link.history := s.link.history ++ [.sleep ms], seq := .busy op (k + 1) p }

/-- 20_memory.md R75: waits for a byte, consumes none, and holds with no step while the queue is empty. -/
def Obligations.WaitPendingHoldsOnAnEmptyQueue : Prop :=
  ∀ (st : Stage) (k : Nat) (s : State), s.seq = .busy 0x20 k (.pending st) →
    (s.link.rq ≠ [] →
      exec .fwUpdate s =
        .next { s with link.history := s.link.history ++ [.pend], seq := .busy 0x20 (k + 1) (.reply st) }) ∧
      (s.link.rq = [] → exec .fwUpdate s = .next s)

/-! ## Firmware update -/

/-- 43_fw_update.md R221 and R222: the start and the image validation of FW_UPDATE; neither performs a link primitive. -/
def Obligations.UpdateStartsAndValidatesBeforeTheLink : Prop :=
  ∀ (k : Nat) (s : State),
    (s.seq = .busy 0x20 k .start →
      let s0 : State := { s with reg.fwPhase := 0, reg.chunk := 0, int.entered := false }
      (s.link.attached = true → exec .fwUpdate s = .next { s0 with seq := .busy 0x20 k .validate }) ∧
        (s.link.attached = false →
          exec .fwUpdate s = .next { s0 with
            reg.result := 0x40, reg.detail := 0x00, reg.busy := false, reg.done := true, seq := .idle })) ∧
    (s.seq = .busy 0x20 k .validate → s.int.entered = false →
      (imageCheck s = none → exec .fwUpdate s = .next { s with reg.fwPhase := 1, seq := .busy 0x20 k .enter }) ∧
        ∀ d, imageCheck s = some d →
          exec .fwUpdate s = .next { s with
            reg.fwPhase := 1, reg.result := 0x10, reg.detail := detailByte d, reg.busy := false, reg.done := true
            seq := .idle })

/-- The steps of FW_UPDATE between its packets (43_fw_update.md R220, R224, R230, R233): the EN wait, the phase codes, the
chunk index, DONE. -/
def Obligations.UpdateStepsBetweenPackets : Prop :=
  ∀ (k : Nat) (s : State),
    (s.seq = .busy 0x20 k .enSleep →
      exec .fwUpdate s =
        .next { s with link.history := s.link.history ++ [.sleep 1000], seq := .busy 0x20 (k + 1) (.pending .en) }) ∧
    (∀ (st : Stage) (code : BitVec 4),
      (st, code) ∈ [(Stage.mode, (3 : BitVec 4)), (.di, 4), (.ct, 5), (.part1, 6), (.part2, 7), (.dt, 8), (.ad, 9)] →
      s.seq = .busy 0x20 k (.phase st) →
      exec .fwUpdate s = .next { s with
        reg.fwPhase := code, reg.chunk := if st = Stage.part2 then 0 else s.reg.chunk, seq := .busy 0x20 k (.build st) }) ∧
    (s.seq = .busy 0x20 k .nextChunk → s.reg.chunk.toNat < 168 →
      exec .fwUpdate s = .next { s with
        reg.chunk := BitVec.ofNat 16 (s.reg.chunk.toNat + 1), seq := .busy 0x20 k (.build .part2) }) ∧
    (s.seq = .busy 0x20 k .allPassed →
      exec .fwUpdate s = .next { s with reg.fwPhase := 10, seq := .busy 0x20 k (.tearBaud .ok .none) }) ∧
    ∀ r d, s.seq = .busy 0x20 k (.ending r d) →
      exec .fwUpdate s = .next { s with
        reg.result := resultByte r, reg.detail := detailByte d, reg.busy := false, reg.done := true, seq := .idle }

/-- 43_fw_update.md R223: entering update mode saves the rate and the RTS level, sets ENTERED, then asks for 19200 baud (a
failure changes nothing and stops nothing), drops RTS, sleeps 100 ms and clears the queue. -/
def Obligations.UpdateEntersUpdateMode : Prop :=
  ∀ (k : Nat) (s : State), s.seq = .busy 0x20 k .enter → s.env.agenda = [] →
    ∃ n : Nat, Host.Core.run core n s = .next { s with
      reg.fwPhase := 2
      int.savedBaud := s.reg.linkBaud, int.savedRts := s.reg.rts, int.entered := true
      reg.linkBaud := if s.answer.fails then s.reg.linkBaud else 19200
      reg.rts := false
      link.rq := []
      link.lineBaud := if s.answer.fails then s.link.lineBaud else 19200
      link.lineRts := false
      link.history := s.link.history ++ [.baud 19200 (!s.answer.fails), .rts false, .sleep 100, .clr]
      env := s.drawn.env
      seq := .busy 0x20 (k + 4) (.build .en) }

/-- 43_fw_update.md R234: the teardown restores the saved rate and RTS level (PRESERVE) or 115200 and 1 (HARD), sleeps, clears
the queue, and the outcome it carried is the operation's, whatever the set-baud answered. FW_PHASE and CHUNK are kept. -/
def Obligations.TeardownRestoresTheLinkAndKeepsTheOutcome : Prop :=
  ∀ (k : Nat) (r : ResultCode) (d : DetailCode) (s : State), s.seq = .busy 0x20 k (.tearBaud r d) → s.env.agenda = [] →
    let baud : BitVec 32 := if s.params.restorePolicy = .preserve then s.int.savedBaud else 115200
    let level : Bool := if s.params.restorePolicy = .preserve then s.int.savedRts else true
    ∃ n : Nat, Host.Core.run core n s = .next { s with
      reg.linkBaud := if s.answer.fails then s.reg.linkBaud else baud
      reg.rts := level
      link.rq := []
      link.lineBaud := if s.answer.fails then s.link.lineBaud else baud
      link.lineRts := level
      link.history := s.link.history ++ [.baud baud (!s.answer.fails), .rts level, .sleep 100, .clr]
      env := s.drawn.env
      reg.result := resultByte r, reg.detail := detailByte d, reg.busy := false, reg.done := true, seq := .idle }

/-- 60_exceptions.md R266: the abort of FW_UPDATE with ENTERED = 1 goes to the teardown with its outcome; every other abort
writes RESULT, DETAIL, BUSY and DONE and returns to IDLE, at once where it comes from an internal update, in the step after the
primitive that caused it otherwise (log 1). Nothing else is saved or changed. -/
def Obligations.AbortTearsDownOnlyAnEnteredUpdate : Prop :=
  ∀ (r : ResultCode) (d : DetailCode) (op : Byte) (k : Nat) (p : Point) (s : State), s.seq = .busy op k p →
    (op = 0x20 → s.int.entered = true →
      raise r d s = { s with seq := .busy op k (.tearBaud r d) } ∧
        raiseNext r d s = { s with seq := .busy op k (.tearBaud r d) }) ∧
      (op ≠ 0x20 ∨ s.int.entered = false →
        raise r d s = { s with
          reg.result := resultByte r, reg.detail := detailByte d, reg.busy := false, reg.done := true, seq := .idle } ∧
        raiseNext r d s = { s with seq := .busy op k (.ending r d) })

/-- The request frames (43_fw_update.md R225 to R232), byte for byte, and their lengths (30_encoding.md R99): the 0x80 and 0xA2
frames are padded with zeros to any length that 00_scope.md R10 allows. -/
def Obligations.RequestFramesAreTheSpecs : Prop :=
  ∀ s : State,
    let sealed (body : Bytes) : Bytes := body ++ [fuCk body]
    requestFrame s .en = [0x46, 0x55, 0xFF, 0x45, 0x4E, 0xD3] ∧
      (s.params.frame80Len = 27 → requestFrame s .mode = [0x46, 0x55, 0x80] ++ List.replicate 23 0x00 ++ [0xE5]) ∧
      (4 ≤ s.params.frame80Len →
        requestFrame s .mode = sealed ([0x46, 0x55, 0x80] ++ List.replicate (s.params.frame80Len - 4) 0x00)) ∧
      requestFrame s .di = [0x46, 0x55, 0x90, 0x44, 0x49, 0x48] ∧
      requestFrame s .ct = [0x46, 0x55, 0xA0, 0x43, 0x54, 0x2E] ∧
      (68 ≤ s.params.frameA2Len →
        requestFrame s .part1 =
          sealed ([0x46, 0x55, 0xA2] ++ s.bytes .fw 0 64 ++ List.replicate (s.params.frameA2Len - 68) 0x00)) ∧
      (let hi : Byte := BitVec.ofNat 8 (s.reg.chunk.toNat / 256)
       let lo : Byte := BitVec.ofNat 8 (s.reg.chunk.toNat % 256)
       requestFrame s .part2 = sealed ([0x46, 0x55, 0xA3, hi, lo] ++ s.bytes .fw (0x40 + 64 * s.reg.chunk.toNat) 64)) ∧
      requestFrame s .dt = [0x46, 0x55, 0xA4, 0x44, 0x54, 0x29] ∧
      requestFrame s .ad = [0x46, 0x55, 0xA5, 0xFF, 0x41, 0x44, 0x3C] ∧
      (s.params.lengthsOk = true → ∀ st m,
        (st, m) ∈ [(Stage.en, 6), (.mode, s.params.frame80Len), (.di, 6), (.ct, 6), (.part1, s.params.frameA2Len),
          (.part2, 70), (.dt, 6), (.ad, 7)] →
        (requestFrame s st).length = m)

/-- The eight requests (43_fw_update.md R224): one step puts the frame in FRAME_BUF and its length in FU_LEN, the next hands it over
in one `LinkWrite`; on ioerr the update goes to its teardown with WRITE_ERROR(LINK_WRITE). No other byte and no other register
changes. A request that would leave its buffer stops (log 15); that building and sending are two steps is log 1. -/
def Obligations.RequestsSendTheirFrame : Prop :=
  ∀ (i : Instr) (st : Stage) (k : Nat) (s : State),
    (i, st) ∈ [(Instr.fuReqEn, Stage.en), (.fuReqMode, .mode), (.fuReqDi, .di), (.fuReqCt, .ct), (.fuReqPart1, .part1),
      (.fuReqPart2, .part2), (.fuReqDt, .dt), (.fuReqAd, .ad)] →
    s.params.lengthsOk = true → s.reg.chunk.toNat ≤ 168 →
    let f : Bytes := requestFrame s st
    (s.seq = .busy 0x20 k (.build st) →
      ∃ t : State, exec i s = .next t ∧
        t.bytes .frame 0 f.length = f ∧
        (∀ (c : Buf) (x : Nat), ¬(c = .frame ∧ x < f.length) → t.byteAt c x = s.byteAt c x) ∧
        t = { s with buf := t.buf, reg.fuLen := BitVec.ofNat 16 f.length, seq := .busy 0x20 k (.request st) }) ∧
    (s.seq = .busy 0x20 k (.request st) →
      (s.answer.fails = false →
        exec i s = .next { s with
          link.tl := s.link.tl ++ f, link.history := s.link.history ++ [.tx f true], env := s.drawn.env
          seq := .busy 0x20 (k + 1) (if st = Stage.en then .enSleep else .pending st) }) ∧
      (s.answer.fails = true → s.int.entered = true →
        exec i s = .next { s with
          link.tl := s.link.tl ++ f.take s.answer.count, link.history := s.link.history ++ [.tx f false]
          env := s.drawn.env
          seq := .busy 0x20 (k + 1) (.tearBaud .writeError .linkWrite) }))

/-- The eight replies (43_fw_update.md R224 to R232): with the reply queued one step reads it, and the next stores it in RX_BUF (the
0x90 reply in INFO_BUF too) and, where it passes the reply check and its phase's checks, goes on to the next phase, chunk, or
DONE. No other byte and no register changes. That reading and checking are two steps is log 1. -/
def Obligations.RepliesThatPassGoOn : Prop :=
  ∀ (i : Instr) (st : Stage) (k m : Nat) (next : Point) (s : State),
    (i, st, m, next) ∈
      [(Instr.fuRepEn, Stage.en, 32, Point.phase .mode), (.fuRepMode, .mode, 5, .phase .di), (.fuRepDi, .di, 50, .phase .ct),
        (.fuRepCt, .ct, 6, .phase .part1), (.fuRepPart1, .part1, 6, .phase .part2),
        (.fuRepPart2, .part2, 8, if s.reg.chunk.toNat < 168 then .nextChunk else .phase .dt),
        (.fuRepDt, .dt, s.params.replyLenA4, .phase .ad), (.fuRepAd, .ad, s.params.replyLenA5, .allPassed)] →
    s.params.lengthsOk = true →
    (s.seq = .busy 0x20 k (.reply st) → s.answer.fails = false → m ≤ s.link.rq.length →
      exec i s = .next { s with
        link.rq := s.link.rq.drop m, link.history := s.link.history ++ [.rxn m (some (s.link.rq.take m))]
        env := s.drawn.env, seq := .busy 0x20 (k + 1) (.gotReply st (s.link.rq.take m)) }) ∧
    ∀ r : Bytes, s.seq = .busy 0x20 k (.gotReply st r) → r.length = m →
      fuReplyCheck r st.reqOp (st == .en) = none → phaseCheck s st r = none →
      ∃ t : State, exec i s = .next t ∧
        t.bytes .rx 0 m = r ∧ (st = .di → t.bytes .info 0 50 = r) ∧
        (∀ (c : Buf) (x : Nat), ¬(c = .rx ∧ x < m) → ¬(c = .info ∧ st = .di ∧ x < 50) → t.byteAt c x = s.byteAt c x) ∧
        t = { s with buf := t.buf, seq := .busy 0x20 k next }

/-- A reply that fails (60_exceptions.md R271; 42_fu_framer.md R199): on ioerr, or after the reply check, which decides first, or
after the phase's own checks, the update goes to its teardown with that outcome. RX_BUF holds the reply, INFO_BUF the 0x90 reply
once its reply check passed. With too few bytes and no ioerr the engine holds (log 16). -/
def Obligations.RepliesThatFailTearDown : Prop :=
  ∀ (i : Instr) (st : Stage) (k m : Nat) (s : State),
    (i, st, m) ∈
      [(Instr.fuRepEn, Stage.en, 32), (.fuRepMode, .mode, 5), (.fuRepDi, .di, 50), (.fuRepCt, .ct, 6),
        (.fuRepPart1, .part1, 6), (.fuRepPart2, .part2, 8), (.fuRepDt, .dt, s.params.replyLenA4),
        (.fuRepAd, .ad, s.params.replyLenA5)] →
    s.int.entered = true → s.params.lengthsOk = true →
    (s.seq = .busy 0x20 k (.reply st) →
      (s.answer.fails = true →
        exec i s = .next { s with
          link.rq := s.link.rq.drop s.answer.count, link.history := s.link.history ++ [.rxn m none], env := s.drawn.env
          seq := .busy 0x20 (k + 1) (.tearBaud .readError .linkRead) }) ∧
      (s.answer.fails = false → s.link.rq.length < m → exec i s = .next { s with env := s.drawn.env })) ∧
    ∀ (r : Bytes) (e : ResultCode) (d : DetailCode), s.seq = .busy 0x20 k (.gotReply st r) → r.length = m →
      (fuReplyCheck r st.reqOp (st == .en) = some (e, d) ∨
        (fuReplyCheck r st.reqOp (st == .en) = none ∧ e = .writeError ∧ phaseCheck s st r = some d)) →
      ∃ t : State, exec i s = .next t ∧
        t.bytes .rx 0 m = r ∧
        (st = .di → fuReplyCheck r st.reqOp (st == .en) = none → t.bytes .info 0 50 = r) ∧
        (∀ (c : Buf) (x : Nat), ¬(c = .rx ∧ x < m) →
          ¬(c = .info ∧ st = .di ∧ x < 50 ∧ fuReplyCheck r st.reqOp (st == .en) = none) →
          t.byteAt c x = s.byteAt c x) ∧
        t = { s with buf := t.buf, seq := .busy 0x20 k (.tearBaud e d) }

/-- The phase's own checks and their order (60_exceptions.md R271; 43_fw_update.md R226 to R232, R239). -/
def Obligations.PhaseChecksReportTheFirstFailure : Prop :=
  ∀ (s : State) (st : Stage) (r : Bytes),
    let zero (offs : List Nat) : Prop := ∀ o ∈ offs, r[o]? = some 0x00
    let index : Prop :=
      r[s.params.a3IndexOffset]? = some (BitVec.ofNat 8 (s.reg.chunk.toNat / 256)) ∧
        r[s.params.a3IndexOffset + 1]? = some (BitVec.ofNat 8 (s.reg.chunk.toNat % 256))
    let model : Prop := (r.drop s.params.modelNameOffset).take 9 = s.params.modelName
    (st = .en → phaseCheck s st r = none) ∧
      (∀ offs, (st, offs) ∈ [(Stage.mode, s.params.statusOffs.mode), (.ct, s.params.statusOffs.ct),
          (.part1, s.params.statusOffs.part1), (.dt, s.params.statusOffs.dt), (.ad, s.params.statusOffs.ad)] →
        (zero offs → phaseCheck s st r = none) ∧ (¬zero offs → phaseCheck s st r = some .rejStatus)) ∧
      (st = .di →
        (¬zero s.params.statusOffs.di → phaseCheck s st r = some .rejStatus) ∧
          (zero s.params.statusOffs.di → ¬model → phaseCheck s st r = some .rejModel) ∧
          (zero s.params.statusOffs.di → model → phaseCheck s st r = none)) ∧
      (st = .part2 →
        (¬index → phaseCheck s st r = some .rejIndex) ∧
          (index → ¬zero s.params.statusOffs.part2 → phaseCheck s st r = some .rejStatus) ∧
          (index → zero s.params.statusOffs.part2 → phaseCheck s st r = none))

/-- The upload of part 2 (43_fw_update.md R230), no other agent moving and the device answering every chunk well: from the building of
the first chunk's frame on, the engine sends exactly the 169 frames of the chunks, in increasing index order, consumes exactly their
replies, and goes on to phase 0xA4. -/
def Obligations.UploadStreamsEveryChunkInOrder : Prop :=
  ∀ (k : Nat) (s : State) (rep : Nat → Bytes) (rest : Bytes),
    s.seq = .busy 0x20 k (.build .part2) → s.env.agenda = [] → s.reg.chunk = 0 →
    338 ≤ s.env.answers.length → (∀ a ∈ s.env.answers, a.fails = false) →
    s.link.rq = (List.range 169).flatMap rep ++ rest →
    (∀ i, i < 169 → (rep i).length = 8 ∧ fuReplyCheck (rep i) 0xA3 false = none ∧
      indexOk (rep i) s.params (BitVec.ofNat 16 i) = true ∧ zeroAt (rep i) s.params.statusOffs.part2 = true) →
    ∃ (n : Nat) (t : State), Host.Core.run core n s = .next t ∧ t.seq = .busy 0x20 (k + 507) (.phase .dt) ∧
      t.reg.chunk = 168 ∧ t.link.rq = rest ∧
      t.link.tl = s.link.tl ++ (List.range 169).flatMap fun i =>
        fuFrame 0xA3 ([0x00, BitVec.ofNat 8 i] ++ s.bytes .fw (0x40 + 64 * i) 64)

/-! ## The whole machine -/

/-- The invariant of Safety.lean holds right after reset. -/
def Obligations.ResetMeetsTheInvariant : Prop := State.reset.Inv

/-- Every step of every agent keeps the invariant: parameters in range, buffers canonical, SEL, FW_PHASE and CHUNK in range,
RESULT and DETAIL a pair that occurs, BUSY exactly while an operation is in progress, the sequencer at a place of that
operation. -/
def Obligations.EveryStepKeepsTheInvariant : Prop := ∀ s t : State, s.Inv → step s = .next t → t.Inv

/-- From a state that meets the invariant no step faults and none is refused: the engine never leaves a buffer (20_memory.md
R61) and performs only what its sequencer stands at. -/
def Obligations.NoStepStopsUnderTheInvariant : Prop := ∀ s : State, s.Inv → ∃ t : State, step s = .next t

/-- The transmit log only grows, and a step adds at most one event to the link history (20_memory.md R70, R71; 00_scope.md
R8). -/
def Obligations.LinkLogsOnlyGrow : Prop :=
  ∀ s t : State, step s = .next t →
    s.link.tl <+: t.link.tl ∧ (t.link.history = s.link.history ∨ ∃ e, t.link.history = s.link.history ++ [e])

/-- The writers of 10_state.md R50, by the operation in progress, for the engine's steps: a register or buffer that R50 leaves
blank for the operation is unchanged; CMD, ARG and FW_LEN are written by none; RESULT and DETAIL (R32, R33) and DONE by no step
that leaves BUSY = 1, that is by none but the ending step. -/
def Obligations.OperationsWriteOnlyWhatTheTableSays : Prop :=
  ∀ (i : Instr) (s t : State) (op : Byte) (k : Nat) (p : Point), s.Inv → s.seq = .busy op k p →
    (∃ sp bs, fetch s = some (sp, bs) ∧ decode sp bs = .ok i) → exec i s = .next t →
    t.reg.cmd = s.reg.cmd ∧ t.reg.arg = s.reg.arg ∧ t.reg.fwLen = s.reg.fwLen ∧ t.buf.fw = s.buf.fw ∧
      t.buf.epoch = s.buf.epoch ∧ t.params = s.params ∧ t.link.attached = s.link.attached ∧ t.reg.ovr = s.reg.ovr ∧
      t.int.oparg = s.int.oparg ∧
      (t.reg.busy = true → t.reg.result = s.reg.result ∧ t.reg.detail = s.reg.detail ∧ t.reg.done = s.reg.done) ∧
      (op ≠ 0x10 → t.reg.sel = s.reg.sel) ∧
      (op ≠ 0x13 → t.reg.idbyte = s.reg.idbyte) ∧
      (op ≠ 0x01 → op ≠ 0x02 → op ≠ 0x14 → op ≠ 0x15 →
        t.reg.ckmask = s.reg.ckmask ∧ t.reg.found0 = s.reg.found0 ∧ t.reg.exp0 = s.reg.exp0 ∧
          t.reg.found1 = s.reg.found1 ∧ t.reg.exp1 = s.reg.exp1) ∧
      (op ≠ 0x20 →
        t.reg.fwPhase = s.reg.fwPhase ∧ t.reg.chunk = s.reg.chunk ∧ t.reg.rts = s.reg.rts ∧
          t.reg.linkBaud = s.reg.linkBaud ∧ t.buf.rx = s.buf.rx ∧ t.buf.info = s.buf.info ∧
          t.int.savedBaud = s.int.savedBaud ∧ t.int.savedRts = s.int.savedRts ∧ t.int.entered = s.int.entered) ∧
      (op ≠ 0x04 → op ≠ 0x20 → t.reg.fuLen = s.reg.fuLen ∧ t.buf.frame = s.buf.frame) ∧
      (op ≠ 0x14 → t.buf.edid = s.buf.edid)

/-- 10_state.md R28, R29: in every step, BUSY goes from 0 to 1 only by a host write of CMD (named by its offset or by its platform
address), and from 1 to 0 only by reset or by the ending step, which sets DONE in the same step and returns the sequencer to IDLE;
DONE goes from 0 to 1 only by an engine step of an operation in progress that is its ending step, and from 1 to 0 only by an
acceptance or by reset. -/
def Obligations.BusyEndsOnlyByTheEndingStepOrReset : Prop :=
  ∀ s t : State, step s = .next t →
    let writesCmd (c : Byte) : Prop :=
      ∃ (e : Event) (rest : List Event), s.env.agenda = e :: rest ∧ e.resolve s.params.platformMap = .write 0x00 c
    let resets : Prop := ∃ (n : Nat) (rest : List Event), s.env.agenda = .reset n :: rest
    (s.reg.busy = false → t.reg.busy = true → ∃ c : Byte, writesCmd c ∧ t.reg.cmd = c ∧ t.seq = .busy c 0 .start) ∧
      (s.reg.busy = true → t.reg.busy = false → (t.reg.done = true ∧ t.seq = .idle ∧ t.reg.result ≠ 0xFF) ∨ resets) ∧
      (s.reg.done = false → t.reg.done = true →
        s.seq ≠ .idle ∧ (s.env.agenda = [] ∨ ∃ rest, s.env.agenda = .engine :: rest) ∧
          t.seq = .idle ∧ t.reg.busy = false ∧ t.reg.result ≠ 0xFF) ∧
      (s.reg.done = true → t.reg.done = false → (∃ c : Byte, writesCmd c ∧ s.reg.busy = false ∧ t.reg.busy = true) ∨ resets)
end

