-- ==== Sys2Proof/Laws/State.lean ====
section
/-! SUPPORT. One lemma per field per update: what each update of the state writes and what it leaves alone, all by rfl.
Cite these (they are simp lemmas) instead of unfolding a record update. -/

namespace Sys2Proof.Machine

variable (s : State)

/-! ## goto -/

@[simp] theorem goto_reg (p : Point) : (s.goto p).reg = s.reg := rfl
@[simp] theorem goto_int (p : Point) : (s.goto p).int = s.int := rfl
@[simp] theorem goto_seq (p : Point) : (s.goto p).seq = s.seq.goto p := rfl
@[simp] theorem goto_buf (p : Point) : (s.goto p).buf = s.buf := rfl
@[simp] theorem goto_link (p : Point) : (s.goto p).link = s.link := rfl
@[simp] theorem goto_env (p : Point) : (s.goto p).env = s.env := rfl
@[simp] theorem goto_params (p : Point) : (s.goto p).params = s.params := rfl

/-! ## record -/

@[simp] theorem record_reg (e : LinkEvent) : (s.record e).reg = s.reg := rfl
@[simp] theorem record_int (e : LinkEvent) : (s.record e).int = s.int := rfl
@[simp] theorem record_seq (e : LinkEvent) : (s.record e).seq = s.seq.tick := rfl
@[simp] theorem record_buf (e : LinkEvent) : (s.record e).buf = s.buf := rfl
@[simp] theorem record_link (e : LinkEvent) : (s.record e).link = { s.link with history := s.link.history ++ [e] } := rfl
@[simp] theorem record_env (e : LinkEvent) : (s.record e).env = s.env := rfl
@[simp] theorem record_params (e : LinkEvent) : (s.record e).params = s.params := rfl

/-! ## drawn -/

@[simp] theorem drawn_reg : (s.drawn).reg = s.reg := rfl
@[simp] theorem drawn_int : (s.drawn).int = s.int := rfl
@[simp] theorem drawn_seq : (s.drawn).seq = s.seq := rfl
@[simp] theorem drawn_buf : (s.drawn).buf = s.buf := rfl
@[simp] theorem drawn_link : (s.drawn).link = s.link := rfl
@[simp] theorem drawn_env : (s.drawn).env = { s.env with answers := s.env.answers.tail, drawCount := s.env.drawCount + 1 } := rfl
@[simp] theorem drawn_params : (s.drawn).params = s.params := rfl

/-! ## setBytes -/

@[simp] theorem setBytes_reg (b : Buf) (a : Nat) (bs : Bytes) : (s.setBytes b a bs).reg = s.reg := rfl
@[simp] theorem setBytes_int (b : Buf) (a : Nat) (bs : Bytes) : (s.setBytes b a bs).int = s.int := rfl
@[simp] theorem setBytes_seq (b : Buf) (a : Nat) (bs : Bytes) : (s.setBytes b a bs).seq = s.seq := rfl
@[simp] theorem setBytes_buf (b : Buf) (a : Nat) (bs : Bytes) : (s.setBytes b a bs).buf = s.buf.setBytes b a bs := rfl
@[simp] theorem setBytes_link (b : Buf) (a : Nat) (bs : Bytes) : (s.setBytes b a bs).link = s.link := rfl
@[simp] theorem setBytes_env (b : Buf) (a : Nat) (bs : Bytes) : (s.setBytes b a bs).env = s.env := rfl
@[simp] theorem setBytes_params (b : Buf) (a : Nat) (bs : Bytes) : (s.setBytes b a bs).params = s.params := rfl

/-! ## finish -/

@[simp] theorem finish_reg (r : ResultCode) (d : DetailCode) : (finish r d s).reg = { s.reg with result := resultByte r, detail := detailByte d, busy := false, done := true } := rfl
@[simp] theorem finish_int (r : ResultCode) (d : DetailCode) : (finish r d s).int = s.int := rfl
@[simp] theorem finish_seq (r : ResultCode) (d : DetailCode) : (finish r d s).seq = .idle := rfl
@[simp] theorem finish_buf (r : ResultCode) (d : DetailCode) : (finish r d s).buf = s.buf := rfl
@[simp] theorem finish_link (r : ResultCode) (d : DetailCode) : (finish r d s).link = s.link := rfl
@[simp] theorem finish_env (r : ResultCode) (d : DetailCode) : (finish r d s).env = s.env := rfl
@[simp] theorem finish_params (r : ResultCode) (d : DetailCode) : (finish r d s).params = s.params := rfl

/-! ## accept -/

@[simp] theorem accept_reg (c : Byte) : (accept c s).reg = { s.reg with cmd := c, busy := true, done := false } := rfl
@[simp] theorem accept_int (c : Byte) : (accept c s).int = { s.int with oparg := s.reg.arg } := rfl
@[simp] theorem accept_seq (c : Byte) : (accept c s).seq = .busy c 0 .start := rfl
@[simp] theorem accept_buf (c : Byte) : (accept c s).buf = s.buf := rfl
@[simp] theorem accept_link (c : Byte) : (accept c s).link = s.link := rfl
@[simp] theorem accept_env (c : Byte) : (accept c s).env = s.env := rfl
@[simp] theorem accept_params (c : Byte) : (accept c s).params = s.params := rfl

/-! ## refuseWrite -/

@[simp] theorem refuseWrite_reg : (refuseWrite s).reg = { s.reg with ovr := true } := rfl
@[simp] theorem refuseWrite_int : (refuseWrite s).int = s.int := rfl
@[simp] theorem refuseWrite_seq : (refuseWrite s).seq = s.seq := rfl
@[simp] theorem refuseWrite_buf : (refuseWrite s).buf = s.buf := rfl
@[simp] theorem refuseWrite_link : (refuseWrite s).link = s.link := rfl
@[simp] theorem refuseWrite_env : (refuseWrite s).env = s.env := rfl
@[simp] theorem refuseWrite_params : (refuseWrite s).params = s.params := rfl

/-! ## giveHost -/

@[simp] theorem giveHost_reg (v : Byte) : (giveHost v s).reg = s.reg := rfl
@[simp] theorem giveHost_int (v : Byte) : (giveHost v s).int = s.int := rfl
@[simp] theorem giveHost_seq (v : Byte) : (giveHost v s).seq = s.seq := rfl
@[simp] theorem giveHost_buf (v : Byte) : (giveHost v s).buf = s.buf := rfl
@[simp] theorem giveHost_link (v : Byte) : (giveHost v s).link = s.link := rfl
@[simp] theorem giveHost_env (v : Byte) : (giveHost v s).env = { s.env with hostReads := s.env.hostReads ++ [v] } := rfl
@[simp] theorem giveHost_params (v : Byte) : (giveHost v s).params = s.params := rfl

/-! ## ckEval -/

@[simp] theorem ckEval_int (n : Nat) : (ckEval n s).int = s.int := rfl
@[simp] theorem ckEval_seq (n : Nat) : (ckEval n s).seq = s.seq := rfl
@[simp] theorem ckEval_buf (n : Nat) : (ckEval n s).buf = s.buf := rfl
@[simp] theorem ckEval_link (n : Nat) : (ckEval n s).link = s.link := rfl
@[simp] theorem ckEval_env (n : Nat) : (ckEval n s).env = s.env := rfl
@[simp] theorem ckEval_params (n : Nat) : (ckEval n s).params = s.params := rfl

/-! ## linkReadByte -/

@[simp] theorem linkReadByte_reg : (linkReadByte s).reg = s.reg := rfl
@[simp] theorem linkReadByte_int : (linkReadByte s).int = s.int := rfl
@[simp] theorem linkReadByte_seq : (linkReadByte s).seq = s.seq.tick := rfl
@[simp] theorem linkReadByte_buf : (linkReadByte s).buf = s.buf := rfl
@[simp] theorem linkReadByte_link : (linkReadByte s).link = { s.link with rq := s.link.rq.tail, history := s.link.history ++ [.rxb s.link.rq.head?] } := rfl
@[simp] theorem linkReadByte_env : (linkReadByte s).env = s.env := rfl
@[simp] theorem linkReadByte_params : (linkReadByte s).params = s.params := rfl

/-! ## linkClear -/

@[simp] theorem linkClear_reg : (linkClear s).reg = s.reg := rfl
@[simp] theorem linkClear_int : (linkClear s).int = s.int := rfl
@[simp] theorem linkClear_seq : (linkClear s).seq = s.seq.tick := rfl
@[simp] theorem linkClear_buf : (linkClear s).buf = s.buf := rfl
@[simp] theorem linkClear_link : (linkClear s).link = { s.link with rq := [], history := s.link.history ++ [.clr] } := rfl
@[simp] theorem linkClear_env : (linkClear s).env = s.env := rfl
@[simp] theorem linkClear_params : (linkClear s).params = s.params := rfl

/-! ## linkSetRts -/

@[simp] theorem linkSetRts_reg (level : Bool) : (linkSetRts level s).reg = { s.reg with rts := level } := rfl
@[simp] theorem linkSetRts_int (level : Bool) : (linkSetRts level s).int = s.int := rfl
@[simp] theorem linkSetRts_seq (level : Bool) : (linkSetRts level s).seq = s.seq.tick := rfl
@[simp] theorem linkSetRts_buf (level : Bool) : (linkSetRts level s).buf = s.buf := rfl
@[simp] theorem linkSetRts_link (level : Bool) : (linkSetRts level s).link = { s.link with lineRts := level, history := s.link.history ++ [.rts level] } := rfl
@[simp] theorem linkSetRts_env (level : Bool) : (linkSetRts level s).env = s.env := rfl
@[simp] theorem linkSetRts_params (level : Bool) : (linkSetRts level s).params = s.params := rfl

/-! ## sleep -/

@[simp] theorem sleep_reg (ms : Nat) : (sleep ms s).reg = s.reg := rfl
@[simp] theorem sleep_int (ms : Nat) : (sleep ms s).int = s.int := rfl
@[simp] theorem sleep_seq (ms : Nat) : (sleep ms s).seq = s.seq.tick := rfl
@[simp] theorem sleep_buf (ms : Nat) : (sleep ms s).buf = s.buf := rfl
@[simp] theorem sleep_link (ms : Nat) : (sleep ms s).link = { s.link with history := s.link.history ++ [.sleep ms] } := rfl
@[simp] theorem sleep_env (ms : Nat) : (sleep ms s).env = s.env := rfl
@[simp] theorem sleep_params (ms : Nat) : (sleep ms s).params = s.params := rfl

/-! ## linkWrite -/

@[simp] theorem linkWrite_reg (bs : Bytes) : (linkWrite bs s).reg = s.reg := rfl
@[simp] theorem linkWrite_int (bs : Bytes) : (linkWrite bs s).int = s.int := rfl
@[simp] theorem linkWrite_seq (bs : Bytes) : (linkWrite bs s).seq = s.seq.tick := rfl
@[simp] theorem linkWrite_buf (bs : Bytes) : (linkWrite bs s).buf = s.buf := rfl
@[simp] theorem linkWrite_link (bs : Bytes) : (linkWrite bs s).link = { s.link with
      tl := s.link.tl ++ (if s.answer.fails then bs.take s.answer.count else bs)
      history := s.link.history ++ [.tx bs (!s.answer.fails)] } := rfl
@[simp] theorem linkWrite_env (bs : Bytes) : (linkWrite bs s).env = s.drawn.env := rfl
@[simp] theorem linkWrite_params (bs : Bytes) : (linkWrite bs s).params = s.params := rfl

/-! ## linkReadFailed -/

@[simp] theorem linkReadFailed_reg (n : Nat) : (linkReadFailed n s).reg = s.reg := rfl
@[simp] theorem linkReadFailed_int (n : Nat) : (linkReadFailed n s).int = s.int := rfl
@[simp] theorem linkReadFailed_seq (n : Nat) : (linkReadFailed n s).seq = s.seq.tick := rfl
@[simp] theorem linkReadFailed_buf (n : Nat) : (linkReadFailed n s).buf = s.buf := rfl
@[simp] theorem linkReadFailed_link (n : Nat) : (linkReadFailed n s).link = { s.link with rq := s.link.rq.drop s.answer.count, history := s.link.history ++ [.rxn n none] } := rfl
@[simp] theorem linkReadFailed_env (n : Nat) : (linkReadFailed n s).env = s.drawn.env := rfl
@[simp] theorem linkReadFailed_params (n : Nat) : (linkReadFailed n s).params = s.params := rfl

/-! ## linkReadDone -/

@[simp] theorem linkReadDone_reg (n : Nat) : (linkReadDone n s).reg = s.reg := rfl
@[simp] theorem linkReadDone_int (n : Nat) : (linkReadDone n s).int = s.int := rfl
@[simp] theorem linkReadDone_seq (n : Nat) : (linkReadDone n s).seq = s.seq.tick := rfl
@[simp] theorem linkReadDone_buf (n : Nat) : (linkReadDone n s).buf = s.buf := rfl
@[simp] theorem linkReadDone_link (n : Nat) : (linkReadDone n s).link = { s.link with rq := s.link.rq.drop n, history := s.link.history ++ [.rxn n (some (s.link.rq.take n))] } := rfl
@[simp] theorem linkReadDone_env (n : Nat) : (linkReadDone n s).env = s.drawn.env := rfl
@[simp] theorem linkReadDone_params (n : Nat) : (linkReadDone n s).params = s.params := rfl

/-! ## The sequencer -/

@[simp] theorem tick_idle : Seq.idle.tick = .idle := rfl
@[simp] theorem tick_busy (op : Byte) (k : Nat) (p : Point) : (Seq.busy op k p).tick = .busy op (k + 1) p := rfl
@[simp] theorem seqGoto_idle (p : Point) : Seq.idle.goto p = .idle := rfl
@[simp] theorem seqGoto_busy (op : Byte) (k : Nat) (p q : Point) : (Seq.busy op k p).goto q = .busy op k q := rfl
@[simp] theorem isUpdate_idle : Seq.idle.isUpdate = false := rfl
@[simp] theorem isUpdate_busy (op : Byte) (k : Nat) (p : Point) : (Seq.busy op k p).isUpdate = (op == 0x20) := rfl
@[simp] theorem isUpdate_tick (q : Seq) : q.tick.isUpdate = q.isUpdate := by cases q <;> rfl
@[simp] theorem isUpdate_goto (q : Seq) (p : Point) : (q.goto p).isUpdate = q.isUpdate := by cases q <;> rfl

end Sys2Proof.Machine
end

