-- ==== Sys2Proof/Laws/Memory.lean ====
section
/-! SUPPORT. Buffers: read after write, everything else unchanged, and the canonical form kept by every operation. -/

namespace Sys2Proof.Machine

/-! ## One buffer's list -/

theorem lookup_write_same (m : Mem) (a : Nat) (v : Byte) : Mem.lookup (Mem.write m a v) a = some v := by
  induction m with
  | nil => simp [Mem.write, Mem.lookup]
  | cons c t ih =>
    obtain ⟨b, w⟩ := c
    by_cases h1 : a < b
    · simp [Mem.write, Mem.lookup, h1]
    · by_cases h2 : a = b
      · simp [Mem.write, Mem.lookup, h2]
      · simp [Mem.write, Mem.lookup, h1, h2, ih]

theorem lookup_write_other (m : Mem) (a c : Nat) (v : Byte) (h : c ≠ a) :
    Mem.lookup (Mem.write m a v) c = Mem.lookup m c := by
  induction m with
  | nil => simp [Mem.write, Mem.lookup, h]
  | cons x t ih =>
    obtain ⟨b, w⟩ := x
    by_cases h1 : a < b
    · simp [Mem.write, Mem.lookup, h1, h]
    · by_cases h2 : a = b
      · subst h2; simp [Mem.write, Mem.lookup, h]
      · by_cases h3 : c = b <;> simp [Mem.write, Mem.lookup, h1, h2, h3, ih]

/-- Every entry after a write is the written one or was there before. -/
theorem mem_write {m : Mem} {a : Nat} {v : Byte} {c : Host.Cell} (h : c ∈ Mem.write m a v) : c = (a, v) ∨ c ∈ m := by
  induction m with
  | nil => simpa [Mem.write] using h
  | cons x t ih =>
    obtain ⟨b, w⟩ := x
    unfold Mem.write at h
    split at h
    · simpa using h
    · split at h
      · rcases List.mem_cons.mp h with h | h
        · exact .inl h
        · exact .inr (List.mem_cons_of_mem _ h)
      · rcases List.mem_cons.mp h with h | h
        · exact .inr (h ▸ List.mem_cons_self)
        · exact (ih h).imp id (List.mem_cons_of_mem _)

/-- A write keeps the canonical form. -/
theorem write_wf {n : Nat} {m : Mem} {a : Nat} (v : Byte) (hm : Mem.wf n m) (ha : a < n) : Mem.wf n (Mem.write m a v) := by
  refine ⟨?_, fun c hc => ?_⟩
  · obtain ⟨hp, -⟩ := hm
    induction m with
    | nil => simp [Mem.write]
    | cons x t ih =>
      obtain ⟨b, w⟩ := x
      obtain ⟨hb, ht⟩ := List.pairwise_cons.mp hp
      unfold Mem.write
      split
      · rename_i hab
        refine List.pairwise_cons.mpr ⟨fun c hc => ?_, hp⟩
        rcases List.mem_cons.mp hc with rfl | hc
        · exact hab
        · exact hab.trans (hb c hc)
      · split
        · rename_i hab
          exact List.pairwise_cons.mpr ⟨fun c hc => hab ▸ hb c hc, ht⟩
        · rename_i h1 h2
          refine List.pairwise_cons.mpr ⟨fun c hc => ?_, ih ht⟩
          rcases mem_write hc with rfl | hc
          · exact lt_of_le_of_ne (not_lt.mp h1) (Ne.symm h2)
          · exact hb c hc
  · rcases mem_write hc with rfl | hc
    · exact ha
    · exact hm.2 c hc

/-! ## The five buffers -/

@[simp] theorem mem_setMem_same (m : Buffers) (b : Buf) (x : Mem) : (m.setMem b x).mem b = x := by cases b <;> rfl

theorem mem_setMem_other (m : Buffers) {b c : Buf} (x : Mem) (h : c ≠ b) : (m.setMem b x).mem c = m.mem c := by
  cases b <;> cases c <;> first | rfl | exact absurd rfl h

@[simp] theorem setMem_epoch (m : Buffers) (b : Buf) (x : Mem) : (m.setMem b x).epoch = m.epoch := by cases b <;> rfl

@[simp] theorem setByte_epoch (m : Buffers) (b : Buf) (a : Nat) (v : Byte) : (m.setByte b a v).epoch = m.epoch := by
  unfold Buffers.setByte; split <;> simp

/-- A byte written inside its buffer reads back. -/
theorem byteAt_setByte_same (m : Buffers) {b : Buf} {a : Nat} (v : Byte) (h : a < bufSize b) :
    (m.setByte b a v).byteAt b a = v := by
  simp [Buffers.setByte, Buffers.byteAt, h, lookup_write_same]

/-- A write leaves every other byte of every buffer alone. -/
theorem byteAt_setByte_other (m : Buffers) {b c : Buf} {a x : Nat} (v : Byte) (h : c ≠ b ∨ x ≠ a) :
    (m.setByte b a v).byteAt c x = m.byteAt c x := by
  unfold Buffers.setByte
  split
  · by_cases hc : c = b
    · subst hc
      simp [Buffers.byteAt, lookup_write_other _ _ _ _ (h.resolve_left (· rfl))]
    · simp [Buffers.byteAt, mem_setMem_other _ _ hc]
  · rfl

@[simp] theorem setBytes_epoch (m : Buffers) (b : Buf) (a : Nat) (bs : Bytes) : (m.setBytes b a bs).epoch = m.epoch := by
  induction bs generalizing m a with
  | nil => rfl
  | cons v t ih => simp [Buffers.setBytes, ih]

/-- A byte-string write leaves every byte outside it alone. -/
theorem byteAt_setBytes_other (m : Buffers) {b c : Buf} {a x : Nat} (bs : Bytes)
    (h : c ≠ b ∨ x < a ∨ a + bs.length ≤ x) : (m.setBytes b a bs).byteAt c x = m.byteAt c x := by
  induction bs generalizing m a with
  | nil => rfl
  | cons v t ih =>
    rw [List.length_cons] at h
    simp only [Buffers.setBytes]
    rw [ih, byteAt_setByte_other]
    · exact h.imp id fun h => by omega
    · exact h.imp id fun h => by omega

/-- Byte `i` of a byte-string write reads back. -/
theorem byteAt_setBytes_same (m : Buffers) {b : Buf} {a i : Nat} (bs : Bytes) (hi : i < bs.length)
    (h : a + bs.length ≤ bufSize b) : (m.setBytes b a bs).byteAt b (a + i) = bs[i] := by
  induction bs generalizing m a i with
  | nil => simp at hi
  | cons v t ih =>
    rw [List.length_cons] at h
    cases i with
    | zero =>
      simp only [Buffers.setBytes, Nat.add_zero, List.getElem_cons_zero]
      rw [byteAt_setBytes_other _ t (.inr (.inl (Nat.lt_succ_self a)))]
      exact byteAt_setByte_same _ _ (by omega)
    | succ i =>
      simp only [Buffers.setBytes, List.getElem_cons_succ]
      have := ih (m.setByte b a v) (a := a + 1) (i := i) (by simpa using hi) (by omega)
      rwa [show a + 1 + i = a + (i + 1) by omega] at this

@[simp] theorem length_bytes (m : Buffers) (b : Buf) (a n : Nat) : (m.bytes b a n).length = n := by simp [Buffers.bytes]

@[simp] theorem getElem_bytes (m : Buffers) (b : Buf) (a n i : Nat) (h : i < (m.bytes b a n).length) :
    (m.bytes b a n)[i] = m.byteAt b (a + i) := by simp [Buffers.bytes]

/-- What was written reads back whole. -/
theorem bytes_setBytes_same (m : Buffers) {b : Buf} {a : Nat} (bs : Bytes) (h : a + bs.length ≤ bufSize b) :
    (m.setBytes b a bs).bytes b a bs.length = bs :=
  List.ext_getElem (by simp) fun i _ h2 => by simp [byteAt_setBytes_same m bs h2 h]

/-- Bytes away from a write read as before. -/
theorem bytes_setBytes_other (m : Buffers) {b c : Buf} {a x n : Nat} (bs : Bytes)
    (h : c ≠ b ∨ x + n ≤ a ∨ a + bs.length ≤ x) : (m.setBytes b a bs).bytes c x n = m.bytes c x n :=
  List.ext_getElem (by simp) fun i hi _ => by
    simp only [length_bytes] at hi
    simp only [getElem_bytes]
    exact byteAt_setBytes_other m bs (h.imp id fun h => by omega)

/-! ## The canonical form -/

theorem setMem_wf {m : Buffers} {b : Buf} {x : Mem} (hm : m.wf) (hx : Mem.wf (bufSize b) x) : (m.setMem b x).wf := by
  obtain ⟨h1, h2, h3, h4, h5⟩ := hm
  cases b
  · exact ⟨hx, h2, h3, h4, h5⟩
  · exact ⟨h1, hx, h3, h4, h5⟩
  · exact ⟨h1, h2, hx, h4, h5⟩
  · exact ⟨h1, h2, h3, hx, h5⟩
  · exact ⟨h1, h2, h3, h4, hx⟩

theorem mem_wf {m : Buffers} (hm : m.wf) (b : Buf) : Mem.wf (bufSize b) (m.mem b) := by
  obtain ⟨h1, h2, h3, h4, h5⟩ := hm
  cases b <;> assumption

/-- A byte write keeps every buffer canonical and inside its size. -/
theorem setByte_wf {m : Buffers} (hm : m.wf) (b : Buf) (a : Nat) (v : Byte) : (m.setByte b a v).wf := by
  unfold Buffers.setByte
  split
  · rename_i h
    exact setMem_wf hm (write_wf v (mem_wf hm b) h)
  · exact hm

/-- A byte-string write keeps every buffer canonical and inside its size. -/
theorem setBytes_wf {m : Buffers} (hm : m.wf) (b : Buf) (a : Nat) (bs : Bytes) : (m.setBytes b a bs).wf := by
  induction bs generalizing m a with
  | nil => exact hm
  | cons v t ih => exact ih (setByte_wf hm b a v) (a + 1)

/-- Empty buffers are canonical. -/
theorem atReset_wf (epoch : Nat) : (Buffers.atReset epoch).wf := by simp [Buffers.wf, Buffers.atReset, Mem.wf]

/-- The buffers after reset are canonical. -/
theorem reset_buffers_wf : State.reset.buf.wf := atReset_wf 0

end Sys2Proof.Machine
end

