-- ==== Sys2Proof/Laws/Ops.lean ====
section
/-! SUPPORT. One lemma per shared operation that says once everything it can do. Cite these instead of unfolding it. -/

namespace Sys2Proof.Machine

variable (s : State)

/-! ## The abort -/

/-- `raise` goes to the teardown of an update in progress, or ends the operation. -/
theorem raise_cases (r : ResultCode) (d : DetailCode) :
    (s.seq.isUpdate = true ∧ s.int.entered = true ∧ raise r d s = s.goto (.tearBaud r d)) ∨
    ((s.seq.isUpdate = false ∨ s.int.entered = false) ∧ raise r d s = finish r d s) := by
  unfold raise
  cases s.seq.isUpdate <;> cases s.int.entered <;> simp

@[simp] theorem raise_buf (r : ResultCode) (d : DetailCode) : (raise r d s).buf = s.buf := by unfold raise; split <;> rfl
@[simp] theorem raise_int (r : ResultCode) (d : DetailCode) : (raise r d s).int = s.int := by unfold raise; split <;> rfl
@[simp] theorem raise_link (r : ResultCode) (d : DetailCode) : (raise r d s).link = s.link := by unfold raise; split <;> rfl
@[simp] theorem raise_env (r : ResultCode) (d : DetailCode) : (raise r d s).env = s.env := by unfold raise; split <;> rfl
@[simp] theorem raise_params (r : ResultCode) (d : DetailCode) : (raise r d s).params = s.params := by
  unfold raise; split <;> rfl

/-- Outside FW_UPDATE an abort ends the operation at once. -/
theorem raise_of_not_update (r : ResultCode) (d : DetailCode) (h : s.seq.isUpdate = false) : raise r d s = finish r d s := by
  simp [raise, h]

/-- Before ENTERED = 1 an abort ends the operation at once. -/
theorem raise_of_not_entered (r : ResultCode) (d : DetailCode) (h : s.int.entered = false) :
    raise r d s = finish r d s := by simp [raise, h]

/-- In update mode an abort runs the teardown first. -/
theorem raise_of_update (r : ResultCode) (d : DetailCode) (h : s.seq.isUpdate = true) (he : s.int.entered = true) :
    raise r d s = s.goto (.tearBaud r d) := by simp [raise, h, he]

/-- After a primitive the teardown of an update in progress, or the ending step, is the next step. -/
theorem raiseNext_cases (r : ResultCode) (d : DetailCode) :
    (s.seq.isUpdate = true ∧ s.int.entered = true ∧ raiseNext r d s = s.goto (.tearBaud r d)) ∨
    ((s.seq.isUpdate = false ∨ s.int.entered = false) ∧ raiseNext r d s = s.goto (.ending r d)) := by
  unfold raiseNext
  cases s.seq.isUpdate <;> cases s.int.entered <;> simp

/-- Outside FW_UPDATE the ending step follows. -/
theorem raiseNext_of_not_update (r : ResultCode) (d : DetailCode) (h : s.seq.isUpdate = false) :
    raiseNext r d s = s.goto (.ending r d) := by simp [raiseNext, h]

/-- In update mode the teardown follows. -/
theorem raiseNext_of_update (r : ResultCode) (d : DetailCode) (h : s.seq.isUpdate = true) (he : s.int.entered = true) :
    raiseNext r d s = s.goto (.tearBaud r d) := by simp [raiseNext, h, he]

@[simp] theorem raiseNext_reg (r : ResultCode) (d : DetailCode) : (raiseNext r d s).reg = s.reg := rfl
@[simp] theorem raiseNext_int (r : ResultCode) (d : DetailCode) : (raiseNext r d s).int = s.int := rfl
@[simp] theorem raiseNext_buf (r : ResultCode) (d : DetailCode) : (raiseNext r d s).buf = s.buf := rfl
@[simp] theorem raiseNext_link (r : ResultCode) (d : DetailCode) : (raiseNext r d s).link = s.link := rfl
@[simp] theorem raiseNext_env (r : ResultCode) (d : DetailCode) : (raiseNext r d s).env = s.env := rfl
@[simp] theorem raiseNext_params (r : ResultCode) (d : DetailCode) : (raiseNext r d s).params = s.params := rfl

/-! ## Draws and link primitives -/

/-- The next answer depends on the environment alone. -/
theorem answer_of_env {s t : State} (h : t.env = s.env) : t.answer = s.answer := by unfold State.answer; rw [h]

@[simp] theorem answer_goto (p : Point) : (s.goto p).answer = s.answer := rfl
@[simp] theorem answer_record (e : LinkEvent) : (s.record e).answer = s.answer := rfl
@[simp] theorem answer_setBytes (b : Buf) (a : Nat) (bs : Bytes) : (s.setBytes b a bs).answer = s.answer := rfl

theorem answer_cons {a : Answer} {t : List Answer} (h : s.env.answers = a :: t) : s.answer = a := by simp [State.answer, h]

/-- A write that the device takes, and one that it does not. -/
theorem transmit_cases (bs : Bytes) (p : Point) :
    (s.answer.fails = false ∧ transmit bs p s = (linkWrite bs s).goto p) ∨
    (s.answer.fails = true ∧ transmit bs p s = raiseNext .writeError .linkWrite (linkWrite bs s)) := by
  unfold transmit; cases s.answer.fails <;> simp

/-- `LinkReadBytes` at a call site fails into an abort, returns its bytes, or holds. -/
theorem receiveBytes_cases (n : Nat) (g : Bytes → Point) :
    (s.answer.fails = true ∧ receiveBytes n g s = raiseNext .readError .linkRead (linkReadFailed n s)) ∨
    (s.answer.fails = false ∧ n ≤ s.link.rq.length ∧
      receiveBytes n g s = (linkReadDone n s).goto (g (s.link.rq.take n))) ∨
    (s.answer.fails = false ∧ s.link.rq.length < n ∧ receiveBytes n g s = s.drawn) := by
  unfold receiveBytes
  cases s.answer.fails with
  | true => simp
  | false =>
    by_cases h : n ≤ s.link.rq.length
    · simp [h]
    · simp [h, Nat.lt_of_not_le h]

/-- `LinkWaitPending` goes on with a byte in the queue, or changes nothing. -/
theorem linkWaitPending_cases (f : State → State) :
    (s.link.rq ≠ [] ∧ linkWaitPending f s = f (s.record .pend)) ∨ (s.link.rq = [] ∧ linkWaitPending f s = s) := by
  unfold linkWaitPending; by_cases h : s.link.rq = [] <;> simp [h]

/-- `LinkSetBaud` sets the rate, or changes nothing but the history. -/
theorem linkSetBaud_cases (r : BitVec 32) :
    (s.answer.fails = false ∧
      linkSetBaud r s = { s.drawn with reg.linkBaud := r, link.lineBaud := r }.record (.baud r true)) ∨
    (s.answer.fails = true ∧ linkSetBaud r s = s.drawn.record (.baud r false)) := by
  unfold linkSetBaud; cases s.answer.fails <;> simp

@[simp] theorem linkSetBaud_buf (r : BitVec 32) : (linkSetBaud r s).buf = s.buf := by unfold linkSetBaud; split <;> rfl
@[simp] theorem linkSetBaud_int (r : BitVec 32) : (linkSetBaud r s).int = s.int := by unfold linkSetBaud; split <;> rfl
@[simp] theorem linkSetBaud_seq (r : BitVec 32) : (linkSetBaud r s).seq = s.seq.tick := by unfold linkSetBaud; split <;> rfl
@[simp] theorem linkSetBaud_env (r : BitVec 32) : (linkSetBaud r s).env = s.drawn.env := by unfold linkSetBaud; split <;> rfl
@[simp] theorem linkSetBaud_params (r : BitVec 32) : (linkSetBaud r s).params = s.params := by
  unfold linkSetBaud; split <;> rfl

/-! ## EDID evaluation -/

@[simp] theorem validEval_buf : (validEval s).buf = s.buf := by unfold validEval; split <;> rfl
@[simp] theorem validEval_int : (validEval s).int = s.int := by unfold validEval; split <;> rfl
@[simp] theorem validEval_seq : (validEval s).seq = s.seq := by unfold validEval; split <;> rfl
@[simp] theorem validEval_link : (validEval s).link = s.link := by unfold validEval; split <;> rfl
@[simp] theorem validEval_env : (validEval s).env = s.env := by unfold validEval; split <;> rfl
@[simp] theorem validEval_params : (validEval s).params = s.params := by unfold validEval; split <;> rfl

/-- `is_valid()` returns OK, TOO_MANY_EXTENSIONS or CHECKSUM_MISMATCH. -/
theorem validResult_cases :
    validResult s = none ∨ validResult s = some .tooManyExtensions ∨ validResult s = some .checksumMismatch := by
  unfold validResult; split
  · exact .inr (.inl rfl)
  · split
    · exact .inl rfl
    · exact .inr (.inr rfl)

/-- `image_check()` returns OK or one of the three image details. -/
theorem imageCheck_cases :
    imageCheck s = none ∨ imageCheck s = some .imageLength ∨ imageCheck s = some .imageTag ∨
      imageCheck s = some .imageWordsum := by
  unfold imageCheck
  split
  · exact .inr (.inl rfl)
  · split
    · exact .inr (.inr (.inl rfl))
    · split
      · exact .inr (.inr (.inr rfl))
      · exact .inl rfl

/-! ## Polls, device bytes, requests, replies -/

/-- A poll attempt is READY, is one more failed attempt, or is the third. -/
theorem pollAttempt_cases (failed : Nat) (aft : AfterPoll) :
    (s.link.rq.head? = some Config.readyByte ∧ pollAttempt failed aft s = (linkReadByte s).goto (afterReady aft s)) ∨
    (s.link.rq.head? ≠ some Config.readyByte ∧ failed + 1 < Config.pollAttempts ∧
      pollAttempt failed aft s = (linkReadByte s).goto (.pollSleep (failed + 1) aft)) ∨
    (s.link.rq.head? ≠ some Config.readyByte ∧ Config.pollAttempts ≤ failed + 1 ∧
      pollAttempt failed aft s = raiseNext .readError .pollExhausted (linkReadByte s)) := by
  unfold pollAttempt
  by_cases h : s.link.rq.head? = some Config.readyByte
  · exact .inl ⟨h, by simp [h]⟩
  · by_cases h2 : failed + 1 < Config.pollAttempts
    · exact .inr (.inl ⟨h, h2, by simp only [if_neg h, if_pos h2]⟩)
    · exact .inr (.inr ⟨h, Nat.le_of_not_lt h2, by simp only [if_neg h, if_neg h2]⟩)

/-- A device byte that is sent was due. -/
theorem sendDeviceByte_next {b : Byte} {t : State} (h : sendDeviceByte b s = .next t) :
    (∃ op k, s.seq = .busy op k .send ∧ t = transmit [b] (afterSend op) s) ∨
    (∃ op k, s.seq = .busy op k .sendNext ∧ t = transmit [b] .nextSettle s) := by
  unfold sendDeviceByte at h
  split at h
  · next op k hs => exact .inl ⟨op, k, hs, by cases h; rfl⟩
  · next op k hs => exact .inr ⟨op, k, hs, by cases h; rfl⟩
  · cases h

/-- A packet's step is taken at its own phase, and it fits. -/
theorem packetStep_next {st here : Stage} {fits : Bool} {t u : State} (h : packetStep st here fits t = .next u) :
    here = st ∧ fits = true ∧ u = t := by
  unfold packetStep at h
  split at h
  · next he =>
    split at h
    · next hf => exact ⟨he, hf, by cases h; rfl⟩
    · cases h
  · cases h

/-- A request's step builds its frame or sends it. -/
theorem requestStep_next {st : Stage} {t : State} (h : requestStep st s = .next t) :
    (∃ op k, s.seq = .busy op k (.build st) ∧ requestFits s st = true ∧ t = buildRequest st s) ∨
    (∃ op k, s.seq = .busy op k (.request st) ∧ requestFits s st = true ∧ t = sendRequest st s) := by
  unfold requestStep at h
  split at h
  · next op k here hs => obtain ⟨rfl, hf, ht⟩ := packetStep_next h; exact .inl ⟨op, k, hs, hf, ht⟩
  · next op k here hs => obtain ⟨rfl, hf, ht⟩ := packetStep_next h; exact .inr ⟨op, k, hs, hf, ht⟩
  · cases h

/-- A reply's step reads it, or stores and checks it. -/
theorem replyStep_next {st : Stage} {t : State} (h : replyStep st s = .next t) :
    (∃ op k, s.seq = .busy op k (.reply st) ∧ replyFits s st = true ∧
      t = receiveBytes (st.repLen s.params) (.gotReply st) s) ∨
    (∃ op k r, s.seq = .busy op k (.gotReply st r) ∧ gotFits s st r = true ∧ t = checkReply st r s) := by
  unfold replyStep at h
  split at h
  · next op k here hs => obtain ⟨rfl, hf, ht⟩ := packetStep_next h; exact .inl ⟨op, k, hs, hf, ht⟩
  · next op k here r hs => obtain ⟨rfl, hf, ht⟩ := packetStep_next h; exact .inr ⟨op, k, r, hs, hf, ht⟩
  · cases h

/-- A phase check that fails rejects the index, the status or the model name. -/
theorem phaseCheck_cases (st : Stage) (r : Bytes) :
    phaseCheck s st r = none ∨ phaseCheck s st r = some .rejIndex ∨ phaseCheck s st r = some .rejStatus ∨
      phaseCheck s st r = some .rejModel := by
  unfold phaseCheck
  split
  · exact .inr (.inl rfl)
  · split
    · exact .inr (.inr (.inl rfl))
    · split
      · exact .inr (.inr (.inr rfl))
      · exact .inl rfl

/-- What a failed reply check reports. -/
theorem fuReplyCheck_cases (r : Bytes) (op : Byte) (enter : Bool) :
    fuReplyCheck r op enter = none ∨ fuReplyCheck r op enter = some (.readError, .badMagic) ∨
      fuReplyCheck r op enter = some (.readError, .badChecksum) ∨
      fuReplyCheck r op enter = some (.readError, .badOpcode) ∨
      fuReplyCheck r op enter = some (.writeError, .rejOpcode) := by
  unfold fuReplyCheck
  cases magicOk r <;> cases fuCkOk r <;> cases opcodeOk r op <;> cases enter <;> simp

/-! ## The host -/

/-- A host write of a register writes STATUS, is refused, or goes through. -/
theorem hostWrite_cases (off v : Byte) :
    (regAt off = some .status ∧ hostWrite off v s = writeStatus v s) ∨
    (regAt off ≠ some .status ∧ s.reg.busy = true ∧ hostWrite off v s = refuseWrite s) ∨
    (regAt off ≠ some .status ∧ s.reg.busy = false ∧ hostWrite off v s = writeFree off v s) := by
  unfold hostWrite
  by_cases h : regAt off = some .status
  · simp [h]
  · cases hb : s.reg.busy <;> simp [h]

/-- A host read of a register only gives the host a byte. -/
theorem hostRead_cases (off : Byte) : (∃ v, hostRead off s = giveHost v s) ∨ hostRead off s = giveFree s := by
  unfold hostRead
  split
  · exact .inl ⟨_, rfl⟩
  · split
    · exact .inr rfl
    · exact .inl ⟨_, rfl⟩

/-- A host read of a buffer only gives the host a byte. -/
theorem hostBufRead_cases (b : Buf) (a : Nat) :
    (∃ v, hostBufRead b a s = giveHost v s) ∨ hostBufRead b a s = giveFree s := by
  unfold hostBufRead
  split
  · exact .inl ⟨_, rfl⟩
  · split
    · exact .inr rfl
    · exact .inl ⟨_, rfl⟩

/-- Addresses of the register space resolve to register accesses. -/
theorem offsetAt_regs (m : PlatformMap) (off : Byte) : PlatformMap.offsetAt m (m.regs + off.toNat) = some off := by
  have h : off.toNat < 256 := off.isLt
  unfold PlatformMap.offsetAt
  rw [if_pos ⟨by omega, by omega⟩, Nat.add_sub_cancel_left, BitVec.ofNat_toNat, BitVec.setWidth_eq]

/-- What a move by platform address stands for. -/
theorem resolve_cases (m : PlatformMap) (e : Event) :
    e.resolve m = e ∨
    (∃ addr v off, e = .busWrite addr v ∧ PlatformMap.offsetAt m addr = some off ∧ e.resolve m = .write off v) ∨
    (∃ addr v b a, e = .busWrite addr v ∧ PlatformMap.bufferAt m addr = some (b, a) ∧ e.resolve m = .bufWrite b a v) ∨
    (∃ addr off, e = .busRead addr ∧ PlatformMap.offsetAt m addr = some off ∧ e.resolve m = .read off) ∨
    (∃ addr b a, e = .busRead addr ∧ PlatformMap.bufferAt m addr = some (b, a) ∧ e.resolve m = .bufRead b a) := by
  cases e with
  | busWrite addr v =>
    rcases h : PlatformMap.offsetAt m addr with _ | off
    · rcases h2 : PlatformMap.bufferAt m addr with _ | ⟨b, a⟩
      · exact .inl (by simp [Event.resolve, h, h2])
      · exact .inr (.inr (.inl ⟨addr, v, b, a, rfl, h2, by simp [Event.resolve, h, h2]⟩))
    · exact .inr (.inl ⟨addr, v, off, rfl, h, by simp [Event.resolve, h]⟩)
  | busRead addr =>
    rcases h : PlatformMap.offsetAt m addr with _ | off
    · rcases h2 : PlatformMap.bufferAt m addr with _ | ⟨b, a⟩
      · exact .inl (by simp [Event.resolve, h, h2])
      · exact .inr (.inr (.inr (.inr ⟨addr, b, a, rfl, h2, by simp [Event.resolve, h, h2]⟩)))
    · exact .inr (.inr (.inr (.inl ⟨addr, off, rfl, h, by simp [Event.resolve, h]⟩)))
  | _ => exact .inl rfl

/-! ## The step -/

/-- A step is the engine's, or the first move of the agenda. -/
theorem step_cases :
    (s.env.agenda = [] ∧ step s = engineStep s) ∨
    (∃ e rest, s.env.agenda = e :: rest ∧ step s = move e { s with env.agenda := rest }) := by
  unfold step agendaStep
  cases h : s.env.agenda with
  | nil => exact .inl ⟨rfl, rfl⟩
  | cons e rest => exact .inr ⟨e, rest, rfl, rfl⟩

/-- An engine step waits in IDLE, runs the decoded instruction, or ends a reserved code. -/
theorem engineStep_cases :
    (fetch s = none ∧ engineStep s = .next s) ∨
    (∃ sp bs i, fetch s = some (sp, bs) ∧ decode sp bs = .ok i ∧ engineStep s = exec i s) ∨
    (∃ sp bs e, fetch s = some (sp, bs) ∧ decode sp bs = .error e ∧ engineStep s = undecoded e s) := by
  unfold engineStep
  rcases h : fetch s with _ | ⟨sp, bs⟩
  · exact .inl ⟨rfl, rfl⟩
  · rcases hd : decode sp bs with e | i
    · exact .inr (.inr ⟨sp, bs, e, rfl, hd, by simp only [hd]⟩)
    · exact .inr (.inl ⟨sp, bs, i, rfl, hd, by simp only [hd]⟩)

end Sys2Proof.Machine
end

