-- ==== Sys2Proof/Laws/Run.lean ====
section
/-! SUPPORT. Runs of several steps: one step at a time, and one run after another. -/

namespace Sys2Proof.Machine

/-- A run on any machine takes its first step first. -/
theorem run_succ_of_step (M : Host.Core) {n : Nat} {s t : M.State} (h : M.step s = .next t) : M.run (n + 1) s = M.run n t := by
  rw [Host.Core.run, h]

/-- A run on any machine goes on from where a shorter run ended. -/
theorem run_add_of_run (M : Host.Core) {m n : Nat} {s t : M.State} (h : M.run m s = .next t) :
    M.run (m + n) s = M.run n t := by
  induction m generalizing s with
  | zero => cases h; rw [Nat.zero_add]
  | succ m ih =>
    rw [Nat.succ_add, Host.Core.run]
    rw [Host.Core.run] at h
    split at h
    · exact ih h
    · cases h
    · cases h

theorem run_zero (s : State) : Host.Core.run core 0 s = Host.Outcome.next s := rfl

/-- The engine's machine: the first step of a run. -/
theorem run_succ {n : Nat} {s t : State} (h : step s = .next t) :
    Host.Core.run core (n + 1) s = Host.Core.run core n t := run_succ_of_step core h

/-- The engine's machine: a run after a run. -/
theorem run_add {m n : Nat} {s t : State} (h : Host.Core.run core m s = Host.Outcome.next t) :
    Host.Core.run core (m + n) s = Host.Core.run core n t := run_add_of_run core h

/-- With an empty agenda a step is the engine's. -/
theorem step_of_empty_agenda {s : State} (h : s.env.agenda = []) : step s = engineStep s := by simp [step, agendaStep, h]

/-- An engine step at a position whose code word decodes is that instruction's. -/
theorem engineStep_of_decode {s : State} {sp : Space} {bs : Bytes} {i : Instr} (hf : fetch s = some (sp, bs))
    (hd : decode sp bs = .ok i) : engineStep s = exec i s := by simp only [engineStep, hf, hd]

end Sys2Proof.Machine
end

