-- ==== Sys2Proof/Tests/Slice0.lean ====
section
/-! SUPPORT. The model's own tests. Expected values are the spec's: its tables, its examples (cited), or hand calculation from
its rules. A theorem `witness_<Name>` shows concrete states and operands that meet the hypotheses of `Obligations.<Name>`, clause
by clause, at the boundaries of their ranges. -/

open Sys2Proof Sys2Proof.Machine

namespace Sys2Proof.Tests

-- One theorem at a time: the kernel's evaluations below would otherwise each hold a thread.
set_option Elab.async false

/-! ## Small states -/

/-- A platform map without overlaps. -/
def map : PlatformMap := { regs := 0x1000, edid := 0x1100, fw := 0x2000, frame := 0x1200, rx := 0x1300, info := 0x1400 }

/-- Parameters at their defaults, with a tag, a model name, an offset and a platform map for the open ones. -/
def par : Params := Config.defaults [0x54, 0x41, 0x47] [0x54, 0x45, 0x53, 0x54, 0x4D, 0x4F, 0x44, 0x45, 0x4C] 4 map

/-- The machine after reset with those parameters. -/
def base : State := State.resetWith par

/-- Operation `op` with operand `arg` in progress at `p`. -/
def at' (op arg : Byte) (p : Point) (s : State := base) : State :=
  { s with reg.cmd := op, reg.busy := true, int.oparg := arg, seq := .busy op 0 p }

/-- FW_UPDATE in update mode at `p`. -/
def upd (p : Point) (s : State := base) : State := { at' 0x20 0 p s with int.entered := true }

/-- The device answers the coming draws. -/
def ans (l : List Answer) (s : State) : State := { s with env.answers := l }

/-- An answer ok, and one ioerr with nothing sent or consumed. -/
def okA : Answer := ⟨false, 0⟩
def errA : Answer := ⟨true, 0⟩

/-- Bytes wait in the receive queue. -/
def rq (bs : Bytes) (s : State) : State := { s with link.rq := bs }

/-- No session is open. -/
def detached (s : State) : State := { s with link.attached := false }

/-- EDID_BUF holds zero bytes, with `ext` as extension count, and block 0's checksum byte `ck`. -/
def edid (ext ck : Byte) (s : State) : State :=
  { s with buf.edid := (List.range 256).map fun a => (a, if a = 0x7E then ext else if a = 0x7F then ck else 0) }

/-- FRAME_BUF begins with these bytes, and FU_LEN counts them. -/
def frame (bs : Bytes) (s : State) : State :=
  { s with buf := s.buf.setBytes .frame 0 bs, reg.fuLen := BitVec.ofNat 16 bs.length }

/-- The instruction has a next state, and it is as `f` says. -/
def after (o : Host.Outcome State Fault Refusal) (f : State → Bool) : Bool :=
  match o with
  | .next t => f t
  | _ => false

/-! ## WellFormed: each check refuses an ill-formed term -/

theorem test_wf_checksums_zero : (Instr.edidChecksums 0).wellFormed = false := by decide
theorem test_wf_checksums_three : (Instr.edidChecksums 3).wellFormed = false := by decide
theorem test_wf_select_five : (Instr.select 5).wellFormed = false := by decide
theorem test_wf_legal_operands :
    (Instr.edidChecksums 1).wellFormed = true ∧ (Instr.edidChecksums 2).wellFormed = true ∧
      (Instr.select 4).wellFormed = true ∧ (Instr.fuEncode 0xFF).wellFormed = true := by decide
theorem test_params_ok : par.ok = true := by decide
theorem test_params_empty_tag : { par with fwTag := [] }.tagOk = false := by decide
theorem test_params_long_tag : { par with fwTag := List.replicate 65 0x41 }.tagOk = false := by decide
theorem test_params_short_name : { par with modelName := [0x54] }.modelOk = false := by decide
theorem test_params_name_offset_low : { par with modelNameOffset := 3 }.modelOk = false := by decide
theorem test_params_name_offset_high : { par with modelNameOffset := 41 }.modelOk = false := by decide
theorem test_params_frame80 : { par with frame80Len := 3 }.lengthsOk = false := by decide
theorem test_params_frameA2 : { par with frameA2Len := 67 }.lengthsOk = false := by decide
theorem test_params_frameA2_high : { par with frameA2Len := 257 }.lengthsOk = false := by decide
theorem test_params_reply_A4 : { par with replyLenA4 := 3 }.lengthsOk = false := by decide
theorem test_params_reply_A5 : { par with replyLenA5 := 257 }.lengthsOk = false := by decide
theorem test_params_status_low : { par with statusOffs.mode := [2] }.offsetsOk = false := by decide
theorem test_params_status_high : { par with statusOffs.part2 := [7] }.offsetsOk = false := by decide
theorem test_params_index_high : { par with a3IndexOffset := 6 }.offsetsOk = false := by decide

/-! ## Decode: every constructor from a word of the spec's tables (30_encoding.md R91, R95, R96, R97 to R99) -/

theorem test_decode_host :
    decode .host [0x01, 0x02] = .ok (.edidChecksums 2) ∧ decode .host [0x02, 0x00] = .ok .edidIsvalid ∧
      decode .host [0x03, 0x00] = .ok .fwValidate ∧ decode .host [0x04, 0xFF] = .ok (.fuEncode 0xFF) ∧
      decode .host [0x05, 0x80] = .ok (.fuDecode 0x80) ∧ decode .host [0x10, 0x03] = .ok (.select 3) ∧
      decode .host [0x11, 0x00] = .ok .cecConnect ∧ decode .host [0x12, 0x00] = .ok .cecDisconnect ∧
      decode .host [0x13, 0x00] = .ok .identify ∧ decode .host [0x14, 0x00] = .ok .readEdid ∧
      decode .host [0x15, 0x00] = .ok .writeEdid ∧ decode .host [0x20, 0x00] = .ok .fwUpdate := by decide

theorem test_decode_device :
    decode .device [0x01] = .ok .devSelDefault ∧ decode .device [0x02] = .ok .devSel1 ∧
      decode .device [0x03] = .ok .devSel2 ∧ decode .device [0x04] = .ok .devSel3 ∧
      decode .device [0x05] = .ok .devNextBlock ∧ decode .device [0x07] = .ok .devReadDisplay ∧
      decode .device [0x08] = .ok .devCecOn ∧ decode .device [0x09] = .ok .devCecOff ∧
      decode .device [0x0A] = .ok .devWrite ∧ decode .device [0x0B] = .ok .devIdent ∧
      decode .device [0x0C] = .ok .devReadDevice ∧ decode .inbound [0x05] = .ok .devReady := by decide

theorem test_decode_requests :
    decode .packet [0x46, 0x55, 0xFF] = .ok .fuReqEn ∧ decode .packet [0x46, 0x55, 0x80] = .ok .fuReqMode ∧
      decode .packet [0x46, 0x55, 0x90] = .ok .fuReqDi ∧ decode .packet [0x46, 0x55, 0xA0] = .ok .fuReqCt ∧
      decode .packet [0x46, 0x55, 0xA2] = .ok .fuReqPart1 ∧ decode .packet [0x46, 0x55, 0xA3] = .ok .fuReqPart2 ∧
      decode .packet [0x46, 0x55, 0xA4] = .ok .fuReqDt ∧ decode .packet [0x46, 0x55, 0xA5] = .ok .fuReqAd := by decide

theorem test_decode_replies :
    decode .packet [0x46, 0x55, 0x7F] = .ok .fuRepEn ∧ decode .packet [0x46, 0x55, 0x00] = .ok .fuRepMode ∧
      decode .packet [0x46, 0x55, 0x10] = .ok .fuRepDi ∧ decode .packet [0x46, 0x55, 0x20] = .ok .fuRepCt ∧
      decode .packet [0x46, 0x55, 0x22] = .ok .fuRepPart1 ∧ decode .packet [0x46, 0x55, 0x23] = .ok .fuRepPart2 ∧
      decode .packet [0x46, 0x55, 0x24] = .ok .fuRepDt ∧ decode .packet [0x46, 0x55, 0x25] = .ok .fuRepAd := by decide

theorem test_decode_refuses_by_name :
    decode .host [0x06, 0x00] = .error (.reservedCommand 0x06) ∧ decode .device [0x06] = .error (.unusedDeviceByte 0x06) ∧
      decode .device [0x0D] = .error (.unusedDeviceByte 0x0D) ∧ decode .inbound [0x04] = .error (.notReady 0x04) ∧
      decode .packet [0x46, 0x54, 0xFF] = .error (.badMagic 0x46 0x54) ∧
      decode .packet [0x46, 0x55, 0xA1] = .error (.unknownPacket 0xA1) ∧ decode .host [0x10] = .error .missingByte := by decide

theorem test_table_words :
    decodeTableWord 8 0x20 = some .fwUpdate ∧ decodeTableWord 8 0x0C = some .devReadDevice ∧
      decodeTableWord 24 0x4655FF = some .fuReqEn ∧ decodeTableWord 24 0x465523 = some .fuRepPart2 ∧
      decodeTableWord 8 0x06 = none := by decide

theorem test_placed_host : fetch (State.reset.withFetchWord 8 0x20) = some (.host, [0x20, 0x00]) := by decide
theorem test_placed_device : fetch (State.reset.withFetchWord 8 0x0C) = some (.device, [0x0C]) := by decide
theorem test_placed_packet : fetch (State.reset.withFetchWord 24 0x4655A4) = some (.packet, [0x46, 0x55, 0xA4]) := by decide

/-! ## Instructions -/

/-- 40_edid_model.md R131's example: a block of zeros. -/
theorem test_edidChecksums_zeros :
    after (exec (.edidChecksums 1) (edid 0 0 (at' 0x01 1 .start)))
      (fun t => t.reg.result == 0x00 && t.reg.ckmask == 0 && t.reg.found0 == 0 && t.reg.exp0 == 0) = true := by decide +kernel

/-- R132 by hand: extension count 1 makes block 0's sum 1, so 255 is expected and 0 is found; block 1 is good. -/
theorem test_edidChecksums_bad_block :
    after (exec (.edidChecksums 2) (edid 1 0 (at' 0x01 2 .start)))
      (fun t => t.reg.result == 0x10 && t.reg.detail == 0x02 && t.reg.ckmask == 1 && t.reg.found0 == 0 && t.reg.exp0 == 255) =
      true := by decide +kernel

/-- R133's example: extension count 3. -/
theorem test_edidIsvalid_extensions :
    after (exec .edidIsvalid (edid 3 0 (at' 0x02 0 .start)))
      (fun t => t.reg.result == 0x10 && t.reg.detail == 0x01 && t.reg.ckmask == 0) = true := by decide

/-- R133: one extension, both sums 0 mod 256. -/
theorem test_edidIsvalid_ok :
    after (exec .edidIsvalid (edid 1 255 (at' 0x02 0 .start))) (fun t => t.reg.result == 0x00 && t.reg.found0 == 255) =
      true := by decide +kernel

/-- 42_fu_framer.md R198's example: FW_LEN = 0x2A81. -/
theorem test_fwValidate_length :
    after (exec .fwValidate { at' 0x03 0 .start with reg.fwLen := 0x2A81 })
      (fun t => t.reg.result == 0x10 && t.reg.detail == 0x03) = true := by decide

/-- R194's example: the EN frame. -/
theorem test_fuEncode_en :
    after (exec (.fuEncode 0xFF) (frame [0, 0, 0, 0x45, 0x4E] (at' 0x04 0xFF .start)))
      (fun t => t.bytes .frame 0 6 == [0x46, 0x55, 0xFF, 0x45, 0x4E, 0xD3] && t.reg.fuLen == 6) = true := by decide

/-- R195's example: the reply to 0x80. -/
theorem test_fuDecode_mode :
    after (exec (.fuDecode 0x80) (frame [0x46, 0x55, 0x00, 0x00, 0x65] (at' 0x05 0x80 .start)))
      (fun t => t.reg.result == 0x00 && t.reg.detail == 0x00) = true := by decide

/-- R195: a request frame against its own opcode. -/
theorem test_fuDecode_bad_opcode :
    after (exec (.fuDecode 0xFF) (frame [0x46, 0x55, 0xFF, 0x45, 0x4E, 0xD3] (at' 0x05 0xFF .start)))
      (fun t => t.reg.result == 0x30 && t.reg.detail == 0x15) = true := by decide

/-- 41_device_commands.md R152's example, p = 2: the byte, then the last step. -/
theorem test_select_byte :
    after (step (ans [okA] (at' 0x10 2 .send))) (fun t => t.link.tl == [0x03] && t.seq == .busy 0x10 1 .settle) = true := by
  decide
theorem test_select_end :
    after (exec (.select 2) (at' 0x10 2 .setSel)) (fun t => t.reg.sel == 2 && t.reg.result == 0x00) = true := by decide

/-- R153's example. -/
theorem test_cecConnect_byte :
    after (step (ans [okA] (at' 0x11 0 .send))) (fun t => t.link.history == [.tx [0x08] true]) = true := by decide

/-- R154's example: ioerr sends a prefix, no Sleep, then WRITE_ERROR(LINK_WRITE). -/
theorem test_cecDisconnect_ioerr :
    after (step (ans [errA] (at' 0x12 0 .send)))
      (fun t => t.link.history == [.tx [0x09] false] && t.link.tl == [] && t.reg.busy) = true := by decide
theorem test_cecDisconnect_ends :
    after (exec .cecDisconnect (at' 0x12 0 (.ending .writeError .linkWrite)))
      (fun t => t.reg.result == 0x20 && t.reg.detail == 0x20 && t.reg.done) = true := by decide

/-- R155's example. -/
theorem test_identify_reads :
    after (exec .identify (rq [0x42, 0x43] (at' 0x13 0 .receive))) (fun t => t.reg.idbyte == 0 && t.link.rq == [0x43]) =
      true := by decide
theorem test_identify_stores :
    after (exec .identify (at' 0x13 0 (.storeId 0x42))) (fun t => t.reg.idbyte == 0x42 && t.reg.result == 0x00) = true := by
  decide

/-- R156: with SEL = DISPLAY the byte is 0x07. -/
theorem test_readEdid_display :
    after (step (ans [okA] { at' 0x14 0 .send with reg.sel := 4 })) (fun t => t.link.tl == [0x07]) = true := by decide

/-- R151: the third failed attempt is the last. -/
theorem test_poll_exhausted :
    after (step (rq [0x06] (at' 0x15 0 (.pollRead 2 .wroteBlock0))))
      (fun t => t.seq == .busy 0x15 1 (.ending .readError .pollExhausted) && t.link.rq == []) = true := by decide

/-- R158: nothing is sent for an invalid blob. -/
theorem test_writeEdid_invalid :
    after (exec .writeEdid (edid 2 0 (at' 0x15 0 .validate)))
      (fun t => t.reg.result == 0x10 && t.reg.detail == 0x01 && t.link.tl == []) = true := by decide

/-- 43_fw_update.md R224, R225, R231, R232: the frame in FRAME_BUF, and frames on the wire. -/
theorem test_fuReqEn_built :
    after (step (upd (.build .en)))
      (fun t => t.bytes .frame 0 6 == [0x46, 0x55, 0xFF, 0x45, 0x4E, 0xD3] && t.reg.fuLen == 6 && t.link.tl == []) = true := by
  decide +kernel
theorem test_fuReqEn_frame :
    after (step (ans [okA] (upd (.request .en)))) (fun t => t.link.tl == [0x46, 0x55, 0xFF, 0x45, 0x4E, 0xD3]) = true := by
  decide +kernel
theorem test_fuReqDt_frame :
    after (step (ans [okA] (upd (.request .dt)))) (fun t => t.link.tl == [0x46, 0x55, 0xA4, 0x44, 0x54, 0x29]) = true := by
  decide
theorem test_fuReqAd_frame :
    after (step (ans [okA] (upd (.request .ad)))) (fun t => t.link.tl == [0x46, 0x55, 0xA5, 0xFF, 0x41, 0x44, 0x3C]) =
      true := by decide

/-- R226: the reply to 0x80 of R195's example passes; a status other than 0 is WRITE_ERROR(REJ_STATUS) through the teardown. -/
theorem test_fuRepMode_passes :
    after (step (upd (.gotReply .mode [0x46, 0x55, 0x00, 0x00, 0x65])))
      (fun t => t.seq == .busy 0x20 0 (.phase .di) && t.bytes .rx 0 5 == [0x46, 0x55, 0x00, 0x00, 0x65]) = true := by decide
theorem test_fuRepMode_status :
    after (step (upd (.gotReply .mode [0x46, 0x55, 0x00, 0x01, 0x64])))
      (fun t => t.seq == .busy 0x20 0 (.tearBaud .writeError .rejStatus)) = true := by decide

/-- R230: the echoed index of another chunk is WRITE_ERROR(REJ_INDEX). -/
theorem test_fuRepPart2_index :
    after (step (upd (.gotReply .part2 [0x46, 0x55, 0x23, 0x00, 0x01, 0x00, 0x00, 0x41])))
      (fun t => t.seq == .busy 0x20 0 (.tearBaud .writeError .rejIndex)) = true := by decide

/-- R234 under RESTORE_POLICY = HARD. -/
theorem test_teardown_hard :
    after (step (ans [okA] (upd (.tearBaud .ok .none) { base with params.restorePolicy := .hard, reg.linkBaud := 19200 })))
      (fun t => t.reg.linkBaud == 115200) = true := by decide

/-- 10_state.md R25, R48: a CMD write is accepted, and refused while BUSY. -/
theorem test_accept : (hostWrite 0x00 0x11 { base with reg.arg := 7 }).int.oparg = 7 := by decide
theorem test_refused : (hostWrite 0x00 0x11 (at' 0x10 0 .start)).reg.cmd = 0x10 := by decide

/-- 20_memory.md R67: a command written by its platform address. -/
theorem test_bus_command :
    after (step { base with env.agenda := [.busWrite 0x1000 0x11] }) (fun t => t.reg.cmd == 0x11 && t.reg.busy) = true := by
  decide +kernel

/-! ## Witnesses: reset, host interface, encodings -/

/-- BUSY = 1: SELECT has just been accepted. -/
def busyState : State := at' 0x10 2 .start

theorem witness_CommandWriteIsAcceptedUnlessBusy : base.reg.busy = false ∧ busyState.reg.busy = true := by decide

theorem witness_OverrunIsSetByRefusedWritesAndClearedByStatusOrReset :
    busyState.reg.busy = true ∧ (0x01 : Byte) ≠ 0x02 ∧ (0x03 : Byte) ≠ 0x02 ∧
      (let s : State := { base with reg.ovr := true, env.agenda := [.write 0x02 0x04] }
       after (step s) (fun t => !t.reg.ovr) = true ∧ s.reg.ovr = true) ∧
      (let s : State := { base with reg.ovr := true, env.agenda := [.reset 0] }
       after (step s) (fun t => !t.reg.ovr) = true ∧ s.reg.ovr = true) := by decide

theorem witness_ReservedOffsetsReadZeroAndIgnoreWrites :
    0x18 ≤ (0x18 : Byte).toNat ∧ 0x18 ≤ (0xFF : Byte).toNat ∧ base.reg.busy = false ∧ busyState.reg.busy = true := by decide

theorem witness_RegisterReadsFollowTheMap : base.reg.busy = false := by decide

theorem witness_HostWritesReachOnlyWritableStorage :
    base.reg.busy = false ∧ (0x03 ≤ (0x03 : Byte).toNat ∧ (0x03 : Byte).toNat ≤ 0x13) ∧
      (0x03 ≤ (0x13 : Byte).toNat ∧ (0x13 : Byte).toNat ≤ 0x13) ∧ bufSize .edid ≤ 256 ∧ 255 < bufSize .edid ∧
      bufSize .fw ≤ 0x2A82 ∧ 0x2A81 < bufSize .fw ∧ Buf.frame ≠ .rx ∧ Buf.frame ≠ .info := by decide

theorem witness_BufferBytesArePlainStorage :
    255 < bufSize .edid ∧ 0x2A81 < bufSize .fw ∧ 49 < bufSize .info ∧ ¬(Buf.rx = .frame ∧ 0 = 0) ∧ ¬(Buf.rx = .rx ∧ 1 = 0) ∧
      0x2A80 + ([0x12, 0x34] : Bytes).length ≤ bufSize .fw ∧ ¬(Buf.fw = .fw ∧ 0x2A80 ≤ 0x2A7F ∧ 0x2A7F < 0x2A80 + 2) ∧
      base.reg.busy = false ∧ Buf.edid ≠ .rx ∧ Buf.edid ≠ .info := by decide

theorem witness_DecodedWordsReencode :
    decode .host [0x10, 0x02] = .ok (.select 2) ∧ decode .host [0x01, 0x55] = .ok (.edidChecksums 0x55) ∧ decode .host [0x11, 0x55] = .ok .cecConnect ∧
      decode .device [0x07, 0x00] = .ok .devReadDisplay ∧ decode .inbound [0x05] = .ok .devReady ∧
      decode .packet [0x46, 0x55, 0x7F, 0x00] = .ok .fuRepEn := by decide

theorem witness_ReservedCodesAndIllegalOperandsEndAtOnce :
    ([0x00, 0x06, 0x0F, 0x16, 0x1F, 0x21, 0xFF] : List Byte).all (fun c => decide ((at' c 0 .start).seq = .busy c 0 .start ∧
      (c = 0x00 ∨ (0x06 ≤ c.toNat ∧ c.toNat ≤ 0x0F) ∨ (0x16 ≤ c.toNat ∧ c.toNat ≤ 0x1F) ∨ 0x21 ≤ c.toNat))) = true ∧
      base.reg.busy = false ∧
      ([0x00, 0x03, 0xFF] : List Byte).all (fun a => decide
        ((at' 0x01 a .start).int.oparg ≠ 0x01 ∧ (at' 0x01 a .start).int.oparg ≠ 0x02)) = true ∧
      4 < (at' 0x10 5 .start).int.oparg.toNat ∧ 4 < (at' 0x10 0xFF .start).int.oparg.toNat ∧
      ((2 : BitVec 16).toNat < 3 ∧ 255 < (256 : BitVec 16).toNat) ∧ ((3 : BitVec 16).toNat < 4 ∧ 256 < (257 : BitVec 16).toNat) ∧
      ({ at' 0x04 0 .start with reg.fuLen := 2 } : State).seq = .busy 0x04 0 .start ∧
      ({ at' 0x05 0 .start with reg.fuLen := 257 } : State).seq = .busy 0x05 0 .start := by decide

theorem witness_ReplyCheckReportsTheFirstFailure :
    (let r : Bytes := [0x46, 0x54, 0x00]; ¬(r[0]? = some 0x46 ∧ r[1]? = some 0x55)) ∧
      (let r : Bytes := []; ¬(r[0]? = some 0x46 ∧ r[1]? = some 0x55)) ∧
      (let r : Bytes := [0x46, 0x55, 0x00, 0x00, 0x66]; r[0]? = some 0x46 ∧ r[1]? = some 0x55 ∧ fuCkOk r = false) ∧
      (let r : Bytes := [0x46, 0x55, 0x00, 0x00, 0x65]
       r[0]? = some 0x46 ∧ r[1]? = some 0x55 ∧ fuCkOk r = true ∧ r[2]? ≠ some (0x90 ^^^ 0x80)) ∧
      (let r : Bytes := [0x46, 0x55, 0x00, 0x00, 0x65]
       r[0]? = some 0x46 ∧ r[1]? = some 0x55 ∧ fuCkOk r = true ∧ r[2]? = some (0x80 ^^^ 0x80)) := by decide

/-- The agenda is this one move. -/
def doing (e : Event) (s : State := base) : State := { s with env.agenda := [e] }

theorem witness_StepRunsTheDecodedInstruction :
    fetch busyState = some (.host, [0x10, 0x02]) ∧ decode .host [0x10, 0x02] = .ok (.select 2) ∧ busyState.env.agenda = [] ∧
      ({ busyState with env.agenda := [.engine, .read 0x02] } : State).env.agenda = .engine :: [.read 0x02] ∧
      (fetch (at' 0x06 0 .start) = some (.host, [0x06, 0x00]) ∧ decode .host [0x06, 0x00] = .error (.reservedCommand 0x06)) ∧
      base.seq = .idle ∧ base.env.agenda = [] ∧
      (doing (.write 0x01 2)).env.agenda = .write 0x01 2 :: [] ∧ (doing (.read 0x02)).env.agenda = .read 0x02 :: [] ∧
      (doing (.bufWrite .fw 0x2A81 1)).env.agenda = .bufWrite .fw 0x2A81 1 :: [] ∧
      (doing (.bufRead .info 49)).env.agenda = .bufRead .info 49 :: [] ∧
      (doing (.busWrite 0x10FF 1)).env.agenda = .busWrite (base.params.platformMap.regs + (0xFF : Byte).toNat) 1 :: [] ∧
      (doing (.busRead 0x1000)).env.agenda = .busRead (base.params.platformMap.regs + (0x00 : Byte).toNat) :: [] ∧
      (doing .waitDone).env.agenda = .waitDone :: [] ∧ base.reg.done = false ∧
      ({ doing .waitDone with reg.done := true } : State).reg.done = true ∧
      (doing (.device [0x05])).env.agenda = .device [0x05] :: [] ∧ (doing (.attach false)).env.agenda = .attach false :: [] ∧
      (doing (.configure 9600 true)).env.agenda = .configure 9600 true :: [] ∧
      (doing (.reset 1)).env.agenda = .reset 1 :: [] := by decide

/-- The last byte of EDID_BUF stands in its own window alone, and the address 0x1432 behind INFO_BUF in none. -/
theorem witness_StepRunsTheDecodedInstruction_windows :
    255 < bufSize .edid ∧ ¬(map.regs ≤ map.edid + 255 ∧ map.edid + 255 < map.regs + 256) ∧
      (∀ b, b ≠ .edid → ¬(PlatformMap.base map b ≤ map.edid + 255 ∧ map.edid + 255 < PlatformMap.base map b + bufSize b)) ∧
      ¬(map.regs ≤ 0x1432 ∧ 0x1432 < map.regs + 256) ∧
      ∀ b, ¬(PlatformMap.base map b ≤ 0x1432 ∧ 0x1432 < PlatformMap.base map b + bufSize b) := by
  refine ⟨by decide, by decide, ?_, by decide, ?_⟩
  · intro b hb; cases b <;> first | exact absurd rfl hb | decide
  · intro b; cases b <;> decide

theorem witness_FetchFollowsTheSequencer :
    busyState.seq = .busy 0x10 0 .start ∧
      ([0x10, 0x11, 0x12, 0x13, 0x14, 0x15] : List Byte).all (fun op => decide ((at' op 3 .send).seq = .busy op 0 .send)) = true ∧
      (at' 0x14 0 .sendNext).seq = .busy 0x14 0 .sendNext ∧
      (at' 0x14 0 (.pollRead 2 .readBlock0)).seq = .busy 0x14 0 (.pollRead 2 .readBlock0) ∧
      (upd (.build .ad)).seq = .busy 0x20 0 (.build .ad) ∧ (upd (.request .ad)).seq = .busy 0x20 0 (.request .ad) ∧
      (upd (.reply .en)).seq = .busy 0x20 0 (.reply .en) ∧ (upd (.gotReply .en [0])).seq = .busy 0x20 0 (.gotReply .en [0]) := by
  decide

/-- Places where the host command stands. -/
theorem witness_FetchFollowsTheSequencer_elsewhere :
    (upd (.pending .en)).seq = .busy 0x20 0 (.pending .en) ∧
      (let p : Point := .pending .en
       p ≠ .send ∧ p ≠ .sendNext ∧ (∀ failed aft, p ≠ .pollRead failed aft) ∧
         ∀ st, p ≠ .build st ∧ p ≠ .request st ∧ p ≠ .reply st ∧ ∀ r, p ≠ .gotReply st r) := by simp [upd, at']

/-! ## Witnesses: EDID model and framer -/

theorem witness_EdidChecksumsEvaluatesEveryBlock :
    (at' 0x01 1 .start).seq = .busy 0x01 0 .start ∧ ((1 : Byte) = 1 ∨ (1 : Byte) = 2) ∧ ((2 : Byte) = 1 ∨ (2 : Byte) = 2) ∧
      ((0 : Byte) ≠ 1 ∧ (0 : Byte) ≠ 2) ∧ ((3 : Byte) ≠ 1 ∧ (3 : Byte) ≠ 2) := by decide

theorem witness_EdidIsvalidChecksCountThenSums :
    (edid 2 0 (at' 0x02 0 .start)).seq = .busy 0x02 0 .start ∧
      2 ≤ ((edid 2 0 (at' 0x02 0 .start)).byteAt .edid 0x7E).toNat ∧
      ((edid 1 0 (at' 0x02 0 .start)).byteAt .edid 0x7E).toNat ≤ 1 ∧
      ((edid 0 0 (at' 0x02 0 .start)).byteAt .edid 0x7E).toNat ≤ 1 := by decide +kernel

theorem witness_OneCorruptedByteFailsItsBlock :
    byteSum ((edid 0 0 base).bytes .edid (128 * 0) 128) % 256 = 0 ∧
      byteSum ((edid 0 0 base).bytes .edid (128 * 1) 128) % 256 = 0 ∧
      (1 : Byte) ≠ (edid 0 0 base).byteAt .edid (128 * 0 + 0) ∧
      (0xFF : Byte) ≠ (edid 0 0 base).byteAt .edid (128 * 1 + 127) := by decide +kernel

/-- An image of zeros whose last byte is `v`. -/
@[irreducible] def imageCells (v : Byte) : Mem :=
  ((List.range' 0 0x2A80).map fun a => (a, 0)) ++ [(0x2A80, 0), (0x2A81, v)]

theorem lookup_zeros (n k a : Nat) (rest : Mem) (h1 : k ≤ a) :
    Mem.lookup (((List.range' k n).map fun x => (x, (0 : Byte))) ++ rest) a =
      if a < k + n then some 0 else Mem.lookup rest a := by
  induction n generalizing k with
  | zero => simp [Nat.not_lt.mpr h1]
  | succ n ih =>
    by_cases h : a = k
    · simp [List.range'_succ, Mem.lookup, h]
    · simp only [List.range'_succ, List.map_cons, List.cons_append, Mem.lookup, if_neg h]
      rw [ih (k + 1) (by omega), show k + 1 + n = k + (n + 1) by omega]

theorem lookup_imageCells (v : Byte) (a : Nat) (h : a < 0x2A81) : Mem.lookup (imageCells v) a = some 0 := by
  unfold imageCells
  rw [lookup_zeros _ _ _ _ (Nat.zero_le a)]
  split
  · rfl
  · have : a = 0x2A80 := by omega
    subst this; rfl

theorem lookup_imageCells_last (v : Byte) : Mem.lookup (imageCells v) 0x2A81 = some v := by
  unfold imageCells
  rw [lookup_zeros _ _ _ _ (Nat.zero_le _), if_neg (by omega)]
  simp [Mem.lookup]

theorem wordTotal_zeros (n : Nat) : wordTotal (List.replicate (n + n) 0) = 0 := by
  induction n with
  | zero => rfl
  | succ n ih =>
    rw [show n + 1 + (n + 1) = n + n + 1 + 1 by omega]
    simpa [List.replicate_succ, wordTotal, be16] using ih

/-- FW_VALIDATE in progress on that image, with FW_TAG `tag`. -/
def image (v : Byte) (tag : Bytes) : State :=
  { at' 0x03 0 .start with buf.fw := imageCells v, reg.fwLen := 0x2A82, params.fwTag := tag }

theorem image_byteAt (v : Byte) (tag : Bytes) (a : Nat) (h : a < 0x2A81) : (image v tag).byteAt .fw a = 0 := by
  have e : (image v tag).byteAt .fw a = match Mem.lookup (imageCells v) a with
    | some w => w
    | none => Config.unwrittenByte 0 .fw a := rfl
  rw [e, lookup_imageCells v a h]

theorem image_last (v : Byte) (tag : Bytes) : (image v tag).byteAt .fw 0x2A81 = v := by
  have e : (image v tag).byteAt .fw 0x2A81 = match Mem.lookup (imageCells v) 0x2A81 with
    | some w => w
    | none => Config.unwrittenByte 0 .fw 0x2A81 := rfl
  rw [e, lookup_imageCells_last]

theorem image_bytes (v : Byte) (tag : Bytes) (n : Nat) (h : n ≤ 0x2A81) :
    (image v tag).bytes .fw 0 n = List.replicate n 0 := by
  refine List.ext_getElem (by simp [State.bytes]) fun i h1 _ => ?_
  simp only [State.bytes, length_bytes] at h1
  have := image_byteAt v tag i (by omega)
  simpa [State.bytes, State.byteAt] using this

theorem image_wordsum (v : Byte) (tag : Bytes) : wordsum ((image v tag).bytes .fw 0 0x2A80) = 0 := by
  rw [image_bytes v tag _ (by omega), show (0x2A80 : Nat) = 5440 + 5440 by omega, wordsum, wordTotal_zeros]

/-- The clauses in their order: a wrong length; a wrong tag; a stored word that is not the sum; an image that passes. -/
theorem witness_FwValidateReportsTheFirstFailure :
    (at' 0x03 0 .start).seq = .busy 0x03 0 .start ∧ (at' 0x03 0 .start).reg.fwLen ≠ 0x2A82 ∧
      (∀ v tag, (image v tag).seq = .busy 0x03 0 .start ∧ (image v tag).reg.fwLen = 0x2A82) ∧
      ¬(image 0 [1]).bytes .fw 0 (image 0 [1]).params.fwTag.length = (image 0 [1]).params.fwTag ∧
      ((image 1 [0]).bytes .fw 0 (image 1 [0]).params.fwTag.length = (image 1 [0]).params.fwTag ∧
        ¬wordsum ((image 1 [0]).bytes .fw 0 0x2A80) =
          ((image 1 [0]).byteAt .fw 0x2A80).toNat * 256 + ((image 1 [0]).byteAt .fw 0x2A81).toNat) ∧
      ((image 0 [0]).bytes .fw 0 (image 0 [0]).params.fwTag.length = (image 0 [0]).params.fwTag ∧
        wordsum ((image 0 [0]).bytes .fw 0 0x2A80) =
          ((image 0 [0]).byteAt .fw 0x2A80).toNat * 256 + ((image 0 [0]).byteAt .fw 0x2A81).toNat) := by
  refine ⟨rfl, by decide, fun _ _ => ⟨rfl, rfl⟩, ?_, ⟨?_, ?_⟩, ?_, ?_⟩
  · rw [image_bytes _ _ _ (by decide)]; decide
  · rw [image_bytes _ _ _ (by decide)]; rfl
  · rw [image_wordsum, image_byteAt _ _ _ (by omega), image_last]; decide
  · rw [image_bytes _ _ _ (by decide)]; rfl
  · rw [image_wordsum, image_byteAt _ _ _ (by omega), image_last]; decide

theorem witness_WordSumAddsBigEndianWords :
    ([0x01, 0x02, 0x03, 0x04] : Bytes).length % 2 = 0 ∧ (image 0 [0]).reg.fwLen = 0x2A82 ∧
      (image 0 [0]).bytes .fw 0 (image 0 [0]).params.fwTag.length = (image 0 [0]).params.fwTag := by
  refine ⟨rfl, rfl, ?_⟩
  rw [image_bytes _ _ _ (by decide)]; rfl

/-- FU_LEN at the ends of its range and just outside them. -/
def encodeAt (n : BitVec 16) : State := { at' 0x04 0xFF .start with reg.fuLen := n }

theorem witness_FuEncodeBuildsTheFrame :
    (encodeAt 3).seq = .busy 0x04 0 .start ∧ (3 ≤ (encodeAt 3).reg.fuLen.toNat ∧ (encodeAt 3).reg.fuLen.toNat ≤ 255) ∧
      (3 ≤ (encodeAt 255).reg.fuLen.toNat ∧ (encodeAt 255).reg.fuLen.toNat ≤ 255) ∧
      ((encodeAt 2).reg.fuLen.toNat < 3 ∨ 255 < (encodeAt 2).reg.fuLen.toNat) ∧
      ((encodeAt 256).reg.fuLen.toNat < 3 ∨ 255 < (encodeAt 256).reg.fuLen.toNat) := by decide

/-- A frame for FU_DECODE. -/
def decodeOf (bs : Bytes) : State := frame bs (at' 0x05 0x80 .start)

theorem witness_FuDecodeReportsTheFirstFailure :
    (decodeOf [0x46, 0x55, 0x00]).seq = .busy 0x05 0 .start ∧ (decodeOf [0x46, 0x55, 0x00]).reg.fuLen.toNat < 4 ∧
      256 < (257 : BitVec 16).toNat ∧ (4 ≤ (256 : BitVec 16).toNat ∧ (256 : BitVec 16).toNat ≤ 256) ∧
      (let s := decodeOf [0x46, 0x54, 0x00, 0x66]
       4 ≤ s.reg.fuLen.toNat ∧ s.reg.fuLen.toNat ≤ 256 ∧ ¬(s.byteAt .frame 0 = 0x46 ∧ s.byteAt .frame 1 = 0x55)) ∧
      (let s := decodeOf [0x46, 0x55, 0x00, 0x66]
       (s.byteAt .frame 0 = 0x46 ∧ s.byteAt .frame 1 = 0x55) ∧ byteSum (s.bytes .frame 0 4) % 256 ≠ 0) ∧
      (let s := decodeOf [0x46, 0x55, 0x01, 0x64]
       (s.byteAt .frame 0 = 0x46 ∧ s.byteAt .frame 1 = 0x55) ∧ byteSum (s.bytes .frame 0 4) % 256 = 0 ∧
         ¬s.byteAt .frame 2 = 0x80 ^^^ 0x80) ∧
      (let s := decodeOf [0x46, 0x55, 0x00, 0x65]
       (s.byteAt .frame 0 = 0x46 ∧ s.byteAt .frame 1 = 0x55) ∧ byteSum (s.bytes .frame 0 4) % 256 = 0 ∧
         s.byteAt .frame 2 = 0x80 ^^^ 0x80) := by decide

theorem witness_EncodedFramesDecode :
    ∃ t, exec (.fuEncode 0xFF) (encodeAt 3) = .next t ∧ (encodeAt 3).seq = .busy 0x04 0 .start ∧
      3 ≤ (encodeAt 3).reg.fuLen.toNat ∧ (encodeAt 3).reg.fuLen.toNat ≤ 255 ∧
      (let u : State := { t with seq := .busy 0x05 0 .start }
       u.seq = .busy 0x05 0 .start ∧ u.buf = t.buf ∧ u.reg.fuLen = t.reg.fuLen) :=
  ⟨_, rfl, rfl, by decide, by decide, rfl, rfl, rfl⟩

/-! ## Witnesses: device commands -/

theorem witness_SelectStepsComplete :
    (at' 0x10 5 .start).seq = .busy 0x10 0 .start ∧ 4 < (5 : Byte).toNat ∧ (3 : Byte).toNat ≤ 3 ∧ (0 : Byte).toNat ≤ 3 ∧
      (detached (at' 0x10 3 .start)).link.attached = false ∧ (at' 0x10 3 .start).link.attached = true ∧
      (at' 0x10 3 .settle).seq = .busy 0x10 0 .settle ∧ (at' 0x10 3 .setSel).seq = .busy 0x10 0 .setSel ∧
      (at' 0x10 3 (.ending .writeError .linkWrite)).seq = .busy 0x10 0 (.ending .writeError .linkWrite) := by decide

theorem witness_SelectOperationRunsToItsEnd :
    ([0, 3, 4, 5] : List Byte).all (fun p => decide ((at' 0x10 p .start).seq = .busy 0x10 0 .start ∧
      (at' 0x10 p .start).env.agenda = [] ∧ (at' 0x10 p .start).int.oparg = p)) = true ∧
      (detached (at' 0x10 3 .start)).link.attached = false ∧ (at' 0x10 3 .start).link.attached = true ∧
      (ans [errA] (at' 0x10 3 .start)).answer.fails = true ∧ (ans [okA] (at' 0x10 0 .start)).answer.fails = false := by decide

theorem witness_CecStepsComplete :
    (at' 0x11 0 .start).seq = .busy 0x11 0 .start ∧ (at' 0x12 0 .start).seq = .busy 0x12 0 .start ∧
      (detached (at' 0x11 0 .start)).link.attached = false ∧ (at' 0x12 0 .start).link.attached = true ∧
      (at' 0x11 0 .settle).seq = .busy 0x11 0 .settle ∧
      (at' 0x12 0 (.ending .ok .none)).seq = .busy 0x12 0 (.ending .ok .none) := by decide

theorem witness_CecOperationsRunToTheirEnd :
    ([0x11, 0x12] : List Byte).all (fun op => decide ((at' op 0 .start).seq = .busy op 0 .start ∧ (at' op 0 .start).env.agenda = [] ∧
      (detached (at' op 0 .start)).link.attached = false ∧ (at' op 0 .start).link.attached = true ∧
      (ans [errA] (at' op 0 .start)).answer.fails = true ∧ (ans [okA] (at' op 0 .start)).answer.fails = false)) = true := by
  decide

theorem witness_IdentifyStepsComplete :
    (at' 0x13 0 .start).seq = .busy 0x13 0 .start ∧ (detached (at' 0x13 0 .start)).link.attached = false ∧
      (at' 0x13 0 .start).link.attached = true ∧ (at' 0x13 0 .settle).seq = .busy 0x13 0 .settle ∧
      (at' 0x13 0 .receive).seq = .busy 0x13 0 .receive ∧ (at' 0x13 0 .receive).link.rq = [] ∧
      (rq [0x05] (at' 0x13 0 .receive)).link.rq = 0x05 :: [] ∧
      (at' 0x13 0 (.storeId 0x05)).seq = .busy 0x13 0 (.storeId 0x05) ∧
      (at' 0x13 0 (.ending .readError .noReply)).seq = .busy 0x13 0 (.ending .readError .noReply) := by decide

theorem witness_IdentifyOperationRunsToItsEnd :
    (at' 0x13 0 .start).seq = .busy 0x13 0 .start ∧ (at' 0x13 0 .start).env.agenda = [] ∧
      (detached (at' 0x13 0 .start)).link.attached = false ∧ (at' 0x13 0 .start).link.attached = true ∧
      (ans [errA] (at' 0x13 0 .start)).answer.fails = true ∧
      ((ans [okA] (at' 0x13 0 .start)).answer.fails = false ∧ (ans [okA] (at' 0x13 0 .start)).link.rq = []) ∧
      ((ans [okA] (rq [0x42, 0x05] (at' 0x13 0 .start))).answer.fails = false ∧
        (ans [okA] (rq [0x42, 0x05] (at' 0x13 0 .start))).link.rq = 0x42 :: [0x05]) := by decide

/-- 128 zero bytes are queued. -/
def blockQueued (s : State) : State := rq (zeros 128) s

theorem witness_ReadEdidStepsComplete :
    (at' 0x14 0 .start).seq = .busy 0x14 0 .start ∧ (detached (at' 0x14 0 .start)).link.attached = false ∧
      (at' 0x14 0 .start).link.attached = true ∧
      (at' 0x14 0 (.pollSleep 2 .readBlock0)).seq = .busy 0x14 0 (.pollSleep 2 .readBlock0) ∧
      (at' 0x14 0 .nextSettle).seq = .busy 0x14 0 .nextSettle ∧
      (∀ e ∈ [true, false], (at' 0x14 0 (.readBlock e)).seq = .busy 0x14 0 (.readBlock e)) ∧
      (ans [okA] (blockQueued (at' 0x14 0 (.readBlock true)))).answer.fails = false ∧
      128 ≤ (ans [okA] (blockQueued (at' 0x14 0 (.readBlock true)))).link.rq.length ∧
      (ans [okA] (rq (zeros 127) (at' 0x14 0 (.readBlock true)))).link.rq.length < 128 ∧
      (ans [errA] (at' 0x14 0 (.readBlock false))).answer.fails = true ∧
      (∀ e ∈ [true, false],
        (at' 0x14 0 (.storeBlock e (zeros 128))).seq = .busy 0x14 0 (.storeBlock e (zeros 128)) ∧ (zeros 128).length = 128) ∧
      (at' 0x14 0 .check).seq = .busy 0x14 0 .check ∧
      (at' 0x14 0 (.ending .readError .linkRead)).seq = .busy 0x14 0 (.ending .readError .linkRead) := by decide +kernel

theorem witness_ReadEdidStoresTheQueuedBlock :
    let s := ans [okA, okA] (rq (0x05 :: zeros 128 ++ [0x77]) (at' 0x14 0 .start))
    s.seq = .busy 0x14 0 .start ∧ s.env.agenda = [] ∧ s.link.attached = true ∧ s.env.answers = okA :: okA :: [] ∧
      okA.fails = false ∧ s.link.rq = 0x05 :: zeros 128 ++ [0x77] ∧ (zeros 128).length = 128 ∧ (zeros 128)[0x7E]? = some 0 ∧
      byteSum (zeros 128) % 256 = 0 ∧ byteSum (0x01 :: zeros 127) % 256 ≠ 0 ∧ (0x01 :: zeros 127)[0x7E]? = some 0 := by
  decide +kernel

/-- A block with extension count `ext` and checksum byte `ck`. -/
def extBlock (ext ck : Byte) : Bytes := zeros 126 ++ [ext, ck]

/-- The runs with an extension block: both good; one bad; a count of 2. -/
theorem witness_ReadEdidStoresTheQueuedBlock_extension :
    let s (ext ck : Byte) := ans [okA, okA, okA, okA] (rq (0x05 :: extBlock ext ck ++ zeros 128 ++ [0x77]) (at' 0x14 0 .start))
    (s 1 255).seq = .busy 0x14 0 .start ∧ (s 1 255).env.agenda = [] ∧ (s 1 255).link.attached = true ∧
      (s 1 255).env.answers = okA :: okA :: okA :: okA :: [] ∧ okA.fails = false ∧
      (s 1 255).link.rq = 0x05 :: extBlock 1 255 ++ zeros 128 ++ [0x77] ∧ (zeros 128).length = 128 ∧
      (extBlock 1 255).length = 128 ∧ (extBlock 1 255)[0x7E]? = some 1 ∧ (1 : Byte) ≠ 0 ∧
      (byteSum (extBlock 1 255) % 256 = 0 ∧ byteSum (zeros 128) % 256 = 0) ∧
      ¬(byteSum (extBlock 1 0) % 256 = 0 ∧ byteSum (zeros 128) % 256 = 0) ∧ (extBlock 1 0)[0x7E]? = some 1 ∧
      ((extBlock 2 0)[0x7E]? = some 2 ∧ (2 : Byte) ≠ 0 ∧ (2 : Byte) ≠ 1) := by decide +kernel

theorem witness_WriteEdidStepsComplete :
    (at' 0x15 0 .start).seq = .busy 0x15 0 .start ∧ (detached (at' 0x15 0 .start)).link.attached = false ∧
      (at' 0x15 0 .start).link.attached = true ∧ (edid 0 0 (at' 0x15 0 .validate)).seq = .busy 0x15 0 .validate ∧
      validResult (edid 0 0 (at' 0x15 0 .validate)) = none ∧
      validResult (edid 2 0 (at' 0x15 0 .validate)) = some .tooManyExtensions ∧
      validResult (edid 1 0 (at' 0x15 0 .validate)) = some .checksumMismatch ∧
      (at' 0x15 0 (.pollSleep 0 .wroteBlock1)).seq = .busy 0x15 0 (.pollSleep 0 .wroteBlock1) ∧
      (∀ e ∈ [true, false], (at' 0x15 0 (.writeBlock e)).seq = .busy 0x15 0 (.writeBlock e)) ∧
      (ans [okA] (at' 0x15 0 (.writeBlock true))).answer.fails = false ∧
      (ans [errA] (at' 0x15 0 (.writeBlock false))).answer.fails = true ∧
      (at' 0x15 0 (.ending .ok .none)).seq = .busy 0x15 0 (.ending .ok .none) := by decide +kernel

theorem witness_WriteEdidSendsOpcodeThenBlock :
    let s := ans [okA, okA] (rq [0x05, 0x05, 0x09] (edid 0 0 (at' 0x15 0 .start)))
    s.seq = .busy 0x15 0 .start ∧ s.env.agenda = [] ∧ s.link.attached = true ∧ s.env.answers = okA :: okA :: [] ∧
      okA.fails = false ∧ s.link.rq = 0x05 :: 0x05 :: [0x09] ∧ s.byteAt .edid 0x7E = 0 ∧
      byteSum (s.bytes .edid 0 128) % 256 = 0 := by decide +kernel

/-- The run with an extension block. -/
theorem witness_WriteEdidSendsOpcodeThenBlock_extension :
    let s := ans [okA, okA, okA] (rq [0x05, 0x05, 0x05, 0x09] (edid 1 255 (at' 0x15 0 .start)))
    s.seq = .busy 0x15 0 .start ∧ s.env.agenda = [] ∧ s.link.attached = true ∧ s.env.answers = okA :: okA :: okA :: [] ∧
      okA.fails = false ∧ s.link.rq = 0x05 :: 0x05 :: 0x05 :: [0x09] ∧ s.byteAt .edid 0x7E = 1 ∧
      byteSum (s.bytes .edid 0 128) % 256 = 0 ∧ byteSum (s.bytes .edid 128 128) % 256 = 0 := by decide +kernel

theorem witness_DeviceBytesAreSentByOneWrite :
    ([0x10, 0x11, 0x12, 0x13, 0x14, 0x15] : List Byte).all (fun op => decide ((at' op 0 .send).seq = .busy op 0 .send)) = true ∧
      (at' 0x14 0 .sendNext).seq = .busy 0x14 0 .sendNext ∧ (ans [okA] (at' 0x14 0 .sendNext)).answer.fails = false ∧
      (ans [errA] (at' 0x14 0 .sendNext)).answer.fails = true := by decide

theorem witness_PollAttemptReadsOneByte :
    (∀ f ∈ [0, 1, 2], (at' 0x14 0 (.pollRead f .readBlock0)).seq = .busy 0x14 0 (.pollRead f .readBlock0)) ∧
      (0x14 : Byte) ≠ 0x20 ∧ (rq [0x05] (at' 0x14 0 (.pollRead 0 .readBlock0))).link.rq.head? = some 0x05 ∧
      (rq [] (at' 0x14 0 (.pollRead 1 .readBlock0))).link.rq.head? ≠ some 0x05 ∧ 1 < 2 ∧
      (rq [0x04] (at' 0x14 0 (.pollRead 2 .readBlock0))).link.rq.head? ≠ some 0x05 ∧ 2 ≤ 2 := by decide

theorem witness_PollMakesAtMostThreeAttempts :
    ((0x15 : Byte) = 0x14 ∨ (0x15 : Byte) = 0x15) ∧
      (at' 0x15 0 (.pollSleep 0 .writeBlock0)).seq = .busy 0x15 0 (.pollSleep 0 .writeBlock0) ∧
      (at' 0x15 0 (.pollSleep 0 .writeBlock0)).env.agenda = [] ∧
      (∀ j, j < 3 → (rq [0x04, 0x06] (at' 0x15 0 (.pollSleep 0 .writeBlock0))).link.rq[j]? ≠ some 0x05) ∧
      (let q := (rq [0x04, 0x06, 0x05] (at' 0x15 0 (.pollSleep 0 .writeBlock0))).link.rq
       q[2]? = some 0x05 ∧ ∀ i, i < 2 → q[i]? ≠ some 0x05) ∧
      (rq [0x05] (at' 0x15 0 (.pollSleep 0 .writeBlock0))).link.rq[0]? = some 0x05 := by decide

/-! ## Witnesses: link primitives -/

theorem witness_LinkWriteSendsAllOrAPrefix :
    busyState.seq = .busy 0x10 0 .start ∧ (ans [okA] busyState).answer.fails = false ∧
      (ans [errA] busyState).answer.fails = true := by decide

theorem witness_LinkReadBytesReturnsFailsOrHolds :
    (at' 0x14 0 (.readBlock false)).seq = .busy 0x14 0 (.readBlock false) ∧
      (let s := ans [okA] (rq [1, 2, 3] (at' 0x14 0 (.readBlock false))); s.answer.fails = false ∧ 3 ≤ s.link.rq.length) ∧
      (ans [errA] (at' 0x14 0 (.readBlock false))).answer.fails = true ∧
      (let s := ans [okA] (rq [1, 2] (at' 0x14 0 (.readBlock false))); s.answer.fails = false ∧ s.link.rq.length < 3) := by
  decide

theorem witness_ShortPrimitivesDoWhatTheySay :
    busyState.seq = .busy 0x10 0 .start ∧ (rq [7, 8] busyState).link.rq = 7 :: [8] ∧ busyState.link.rq = [] ∧
      (ans [okA] busyState).answer.fails = false ∧ (ans [errA] busyState).answer.fails = true := by decide

theorem witness_WaitPendingHoldsOnAnEmptyQueue :
    (upd (.pending .en)).seq = .busy 0x20 0 (.pending .en) ∧ (rq [0x46] (upd (.pending .en))).link.rq ≠ [] ∧
      (upd (.pending .en)).link.rq = [] := by decide

/-! ## Witnesses: firmware update -/

theorem witness_UpdateStartsAndValidatesBeforeTheLink :
    (at' 0x20 0 .start).seq = .busy 0x20 0 .start ∧ (at' 0x20 0 .start).link.attached = true ∧
      (detached (at' 0x20 0 .start)).link.attached = false ∧ (at' 0x20 0 .validate).seq = .busy 0x20 0 .validate ∧
      (at' 0x20 0 .validate).int.entered = false ∧ imageCheck (at' 0x20 0 .validate) = some .imageLength := by decide

/-- The clause of a valid image. -/
theorem witness_UpdateStartsAndValidatesBeforeTheLink_valid :
    (at' 0x20 0 .validate (image 0 [0])).seq = .busy 0x20 0 .validate ∧
      (at' 0x20 0 .validate (image 0 [0])).int.entered = false ∧ imageCheck (at' 0x20 0 .validate (image 0 [0])) = none := by
  obtain ⟨-, -, -, -, -, h1, h2⟩ := witness_FwValidateReportsTheFirstFailure
  have e : imageCheck (at' 0x20 0 .validate (image 0 [0])) = imageCheck (image 0 [0]) := rfl
  have h0 : (image 0 [0]).reg.fwLen.toNat = Config.fwImageLen := rfl
  refine ⟨rfl, rfl, ?_⟩
  rw [e, imageCheck, if_neg (not_not.mpr h0), if_neg (not_not.mpr h1), if_neg]
  exact not_not.mpr h2

theorem witness_UpdateStepsBetweenPackets :
    (upd .enSleep).seq = .busy 0x20 0 .enSleep ∧ (upd (.phase .mode)).seq = .busy 0x20 0 (.phase .mode) ∧
      (upd (.phase .ad)).seq = .busy 0x20 0 (.phase .ad) ∧
      (let s : State := { upd .nextChunk with reg.chunk := 167 }; s.seq = .busy 0x20 0 .nextChunk ∧ s.reg.chunk.toNat < 168) ∧
      (upd .allPassed).seq = .busy 0x20 0 .allPassed ∧
      (upd (.ending .writeError .rejIndex)).seq = .busy 0x20 0 (.ending .writeError .rejIndex) := by decide

theorem witness_UpdateEntersUpdateMode :
    (at' 0x20 0 .enter).seq = .busy 0x20 0 .enter ∧ (at' 0x20 0 .enter).env.agenda = [] := by decide

theorem witness_TeardownRestoresTheLinkAndKeepsTheOutcome :
    (upd (.tearBaud .readError .badMagic)).seq = .busy 0x20 0 (.tearBaud .readError .badMagic) ∧
      (upd (.tearBaud .readError .badMagic)).env.agenda = [] := by decide

theorem witness_AbortTearsDownOnlyAnEnteredUpdate :
    (upd (.reply .en)).seq = .busy 0x20 0 (.reply .en) ∧ (upd (.reply .en)).int.entered = true ∧
      (at' 0x20 0 .validate).int.entered = false ∧ (at' 0x14 0 .sendNext).seq = .busy 0x14 0 .sendNext ∧
      (0x14 : Byte) ≠ 0x20 := by decide

theorem witness_RequestFramesAreTheSpecs :
    base.params.frame80Len = 27 ∧ 4 ≤ ({ par with frame80Len := 4 } : Params).frame80Len ∧ 68 ≤ base.params.frameA2Len ∧
      4 ≤ ({ par with frame80Len := 256 } : Params).frame80Len ∧ 68 ≤ ({ par with frameA2Len := 256 } : Params).frameA2Len ∧
      base.params.lengthsOk = true := by decide

theorem witness_RequestsSendTheirFrame :
    (∀ st ∈ [Stage.en, .mode, .di, .ct, .part1, .part2, .dt, .ad],
      (upd (.build st)).seq = .busy 0x20 0 (.build st) ∧ (upd (.request st)).seq = .busy 0x20 0 (.request st) ∧ (upd (.request st)).int.entered = true) ∧
      par.lengthsOk = true ∧ ({ upd (.request .part2) with reg.chunk := 168 } : State).reg.chunk.toNat ≤ 168 ∧
      (ans [okA] (upd (.request .part2))).answer.fails = false ∧ (ans [errA] (upd (.request .part2))).answer.fails = true := by
  decide

/-- A passing reply for each phase, at the default parameters and chunk 0. -/
def goodReply : Stage → Bytes
  | .en => fuFrame 0x7F (zeros 28)
  | .mode => [0x46, 0x55, 0x00, 0x00, 0x65]
  | .di => fuFrame 0x10 (0x00 :: par.modelName ++ zeros 36)
  | .ct => fuFrame 0x20 [0, 0]
  | .part1 => fuFrame 0x22 [0, 0]
  | .part2 => fuFrame 0x23 [0, 0, 0, 0]
  | .dt => fuFrame 0x24 [0, 0]
  | .ad => fuFrame 0x25 [0, 0]

theorem witness_RepliesThatPassGoOn :
    ∀ st ∈ [Stage.en, .mode, .di, .ct, .part1, .part2, .dt, .ad],
      let s := ans [okA] (rq (goodReply st) (upd (.reply st)))
      let u := upd (.gotReply st (goodReply st))
      s.seq = .busy 0x20 0 (.reply st) ∧ s.params.lengthsOk = true ∧ s.answer.fails = false ∧
        st.repLen par ≤ s.link.rq.length ∧
        u.seq = .busy 0x20 0 (.gotReply st (goodReply st)) ∧ (goodReply st).length = st.repLen par ∧
        fuReplyCheck (goodReply st) st.reqOp (st == .en) = none ∧ phaseCheck u st (goodReply st) = none := by
  decide +kernel

theorem witness_RepliesThatFailTearDown :
    (let s := ans [errA] (upd (.reply .di))
     s.seq = .busy 0x20 0 (.reply .di) ∧ s.int.entered = true ∧ s.params.lengthsOk = true ∧ s.answer.fails = true) ∧
      (let s := ans [okA] (rq (zeros 49) (upd (.reply .di))); s.answer.fails = false ∧ s.link.rq.length < 50) ∧
      (let s := upd (.gotReply .di (zeros 50))
       s.seq = .busy 0x20 0 (.gotReply .di (zeros 50)) ∧ s.int.entered = true ∧ (zeros 50).length = 50 ∧
         fuReplyCheck (zeros 50) Stage.di.reqOp (Stage.di == .en) = some (.readError, .badMagic)) ∧
      (let r := fuFrame 0x10 (zeros 46)
       let s := upd (.gotReply .di r)
       s.seq = .busy 0x20 0 (.gotReply .di r) ∧ r.length = 50 ∧
         fuReplyCheck r Stage.di.reqOp (Stage.di == .en) = none ∧ phaseCheck s .di r = some .rejModel) := by decide +kernel

theorem witness_PhaseChecksReportTheFirstFailure :
    (Stage.ct, par.statusOffs.ct) ∈ [(Stage.mode, par.statusOffs.mode), (.ct, par.statusOffs.ct)] ∧
      (∀ o ∈ par.statusOffs.ct, (goodReply .ct)[o]? = some 0x00) ∧
      ¬(∀ o ∈ par.statusOffs.ct, ([0x46, 0x55, 0x20, 0x01] : Bytes)[o]? = some 0x00) ∧
      ¬(∀ o ∈ par.statusOffs.di, ([0x46, 0x55, 0x10, 0x01] : Bytes)[o]? = some 0x00) ∧
      ((∀ o ∈ par.statusOffs.di, (zeros 50)[o]? = some 0x00) ∧
        ¬((zeros 50).drop par.modelNameOffset).take 9 = par.modelName) ∧
      ((∀ o ∈ par.statusOffs.di, (goodReply .di)[o]? = some 0x00) ∧
        ((goodReply .di).drop par.modelNameOffset).take 9 = par.modelName) ∧
      ¬((zeros 3)[par.a3IndexOffset]? = some (BitVec.ofNat 8 (base.reg.chunk.toNat / 256))) ∧
      (let r : Bytes := [0x46, 0x55, 0x23, 0x00, 0x00, 0x01]
       (r[par.a3IndexOffset]? = some (BitVec.ofNat 8 (base.reg.chunk.toNat / 256)) ∧
         r[par.a3IndexOffset + 1]? = some (BitVec.ofNat 8 (base.reg.chunk.toNat % 256))) ∧
         ¬∀ o ∈ par.statusOffs.part2, r[o]? = some 0x00) ∧
      (let r := goodReply .part2
       (r[par.a3IndexOffset]? = some (BitVec.ofNat 8 (base.reg.chunk.toNat / 256)) ∧
         r[par.a3IndexOffset + 1]? = some (BitVec.ofNat 8 (base.reg.chunk.toNat % 256))) ∧
         ∀ o ∈ par.statusOffs.part2, r[o]? = some 0x00) := by decide +kernel

/-- The reply to chunk `i`, its checksum worked out by hand: the other bytes add up to 0xBE + i. -/
def chunkReply (i : Nat) : Bytes :=
  [0x46, 0x55, 0x23, 0x00, BitVec.ofNat 8 i, 0x00, 0x00, 0x42 - BitVec.ofNat 8 i]

theorem witness_UploadStreamsEveryChunkInOrder :
    let s := ans (List.replicate 338 okA) (rq ((List.range 169).flatMap chunkReply ++ [0x46]) (upd (.build .part2)))
    s.seq = .busy 0x20 0 (.build .part2) ∧ s.env.agenda = [] ∧ s.reg.chunk = 0 ∧ 338 ≤ s.env.answers.length ∧
      (∀ a ∈ s.env.answers, a.fails = false) ∧ s.link.rq = (List.range 169).flatMap chunkReply ++ [0x46] ∧
      ∀ i, i < 169 → (chunkReply i).length = 8 ∧ fuReplyCheck (chunkReply i) 0xA3 false = none ∧
        indexOk (chunkReply i) s.params (BitVec.ofNat 16 i) = true ∧ zeroAt (chunkReply i) s.params.statusOffs.part2 = true :=
  ⟨rfl, rfl, rfl, by decide +kernel, by decide +kernel, rfl, by decide +kernel⟩

/-! ## Witnesses: the whole machine -/

theorem base_inv : base.Inv where
  params := by decide
  buffers := atReset_wf 0
  sel := by decide
  phase := by decide
  chunk := by decide
  outcome := .inl ⟨rfl, rfl⟩
  busy := by simp [base, State.resetWith, Regs.atReset]
  notBoth := by decide
  done := fun _ => by decide
  cmd := fun _ _ _ h => by simp [base, State.resetWith] at h
  place := fun _ _ _ h => by simp [base, State.resetWith] at h

theorem busyState_inv : busyState.Inv where
  params := by decide
  buffers := atReset_wf 0
  sel := by decide
  phase := by decide
  chunk := by decide
  outcome := .inl ⟨rfl, rfl⟩
  busy := by simp [busyState, at']
  notBoth := by decide
  done := fun h => by simp [busyState, at'] at h
  cmd := fun _ _ _ h => by cases h; rfl
  place := fun _ _ _ h => by cases h; rfl

/-- CMD is written; the step accepts it. -/
def accepting : State := { base with env.agenda := [.write 0x00 0x10] }

theorem accepting_inv : accepting.Inv where
  params := by decide
  buffers := atReset_wf 0
  sel := by decide
  phase := by decide
  chunk := by decide
  outcome := .inl ⟨rfl, rfl⟩
  busy := by simp [accepting, base, State.resetWith, Regs.atReset]
  notBoth := by decide
  done := fun _ => by decide
  cmd := fun _ _ _ h => by simp [accepting, base, State.resetWith] at h
  place := fun _ _ _ h => by simp [accepting, base, State.resetWith] at h

theorem witness_EveryStepKeepsTheInvariant :
    accepting.Inv ∧ ∃ t, step accepting = .next t ∧ t.reg.busy = true := ⟨accepting_inv, _, rfl, rfl⟩

theorem witness_NoStepStopsUnderTheInvariant : base.Inv ∧ busyState.Inv := ⟨base_inv, busyState_inv⟩

theorem witness_LinkLogsOnlyGrow :
    after (step (ans [okA] (at' 0x11 0 .send))) (fun t => t.link.tl == [0x08] && t.link.history == [.tx [0x08] true]) = true := by
  decide

theorem witness_OperationsWriteOnlyWhatTheTableSays :
    busyState.Inv ∧ busyState.seq = .busy 0x10 0 .start ∧
      (∃ sp bs, fetch busyState = some (sp, bs) ∧ decode sp bs = .ok (.select 2)) ∧
      (∃ t, exec (.select 2) busyState = .next t ∧ t.reg.busy = true) ∧ (0x10 : Byte) ≠ 0x20 ∧ (0x10 : Byte) ≠ 0x14 :=
  ⟨busyState_inv, rfl, ⟨_, _, rfl, rfl⟩, ⟨_, rfl, rfl⟩, by decide, by decide⟩

/-- The clauses in their order; the ending step of the second one also raises DONE. -/
theorem witness_BusyEndsOnlyByTheEndingStepOrReset :
    (accepting.reg.busy = false ∧ after (step accepting) (fun t => t.reg.busy) = true) ∧
      ((at' 0x10 2 .setSel).reg.busy = true ∧ (at' 0x10 2 .setSel).reg.done = false ∧
        after (step (at' 0x10 2 .setSel)) (fun t => !t.reg.busy && t.reg.done) = true) ∧
      (let s : State := { busyState with env.agenda := [.reset 0] }
       s.reg.busy = true ∧ after (step s) (fun t => !t.reg.busy) = true) ∧
      (let s : State := { accepting with reg.done := true, reg.result := 0x00 }
       s.reg.done = true ∧ after (step s) (fun t => !t.reg.done) = true) := by decide

end Sys2Proof.Tests
end

section
/-! The step function, case by case: the agenda's head, the engine's fetch, and the accesses by platform address. At the end, the
statement that a step runs the decoded instruction or the agenda's move. -/

namespace Sys2Proof.Machine

/-! ## The engine's step -/

theorem step_of_agenda_cons {s : State} {e : Event} {rest : List Event} (h : s.env.agenda = e :: rest) :
    step s = move e { s with env.agenda := rest } := by simp only [step, agendaStep, h]

/-- What stands at the sequencer position does not depend on the other agents' moves. -/
@[simp] theorem fetch_set_agenda (s : State) (l : List Event) : fetch { s with env.agenda := l } = fetch s := rfl

theorem fetch_of_idle {s : State} (h : s.seq = .idle) : fetch s = none := by simp only [fetch, h]

theorem engineStep_of_fetch_none {s : State} (h : fetch s = none) : engineStep s = .next s := by simp only [engineStep, h]

theorem engineStep_of_reserved {s : State} {sp : Space} {bs : Bytes} {c : Byte} (hf : fetch s = some (sp, bs))
    (hd : decode sp bs = .error (.reservedCommand c)) : engineStep s = .next (raise .illegalCommand .badCmd s) := by
  simp only [engineStep, hf, hd, undecoded]

/-! ## The agenda's moves -/

/-- A move does what the move it stands for does. -/
theorem move_eq_of_resolve {s : State} {e e' : Event}
    (h : e.resolve s.params.platformMap = e'.resolve s.params.platformMap) : move e s = move e' s := by simp only [move, h]

/-- One round of WAITDONE ends it where DONE = 1 (30_encoding.md R109). -/
theorem hostWaitDone_of_done {s : State} (h : s.reg.done = true) : hostWaitDone s = hostRead 0x02 s := by
  simp [hostWaitDone, h]

/-- Where DONE = 0 the engine moves and WAITDONE goes on (log 18). -/
theorem hostWaitDone_of_not_done {s : State} (h : s.reg.done = false) :
    hostWaitDone s = { hostRead 0x02 s with env.agenda := .engine :: .waitDone :: s.env.agenda } := by
  simp [hostWaitDone, h]

/-! ## The windows of PLATFORM_MAP (20_memory.md R67) -/

/-- An address in the register space, 256 offsets from its base. -/
def PlatformMap.InRegs (m : PlatformMap) (addr : Nat) : Prop := m.regs ≤ addr ∧ addr < m.regs + 256

/-- An address in the window of a buffer. -/
def PlatformMap.InBuf (m : PlatformMap) (b : Buf) (addr : Nat) : Prop :=
  PlatformMap.base m b ≤ addr ∧ addr < PlatformMap.base m b + bufSize b

theorem offsetAt_regs_add (m : PlatformMap) (off : Byte) : PlatformMap.offsetAt m (m.regs + off.toNat) = some off := by
  have hlt : off.toNat < 256 := off.isLt
  simp [PlatformMap.offsetAt, hlt]

theorem offsetAt_of_not_inRegs {m : PlatformMap} {addr : Nat} (h : ¬PlatformMap.InRegs m addr) :
    PlatformMap.offsetAt m addr = none := if_neg h

/-- An address in one window alone names that buffer's byte. -/
theorem bufferAt_of_only_inBuf {m : PlatformMap} {b : Buf} {addr : Nat} (hb : PlatformMap.InBuf m b addr)
    (hc : ∀ c, c ≠ b → ¬PlatformMap.InBuf m c addr) :
    PlatformMap.bufferAt m addr = some (b, addr - PlatformMap.base m b) := by
  have hwindow (c : Buf) :
      (if PlatformMap.base m c ≤ addr ∧ addr < PlatformMap.base m c + bufSize c then some (c, addr - PlatformMap.base m c)
        else none) = if c = b then some (b, addr - PlatformMap.base m b) else none := by
    by_cases h : c = b
    · subst h
      exact (if_pos hb).trans (if_pos rfl).symm
    · exact (if_neg (hc c h)).trans (if_neg h).symm
  simp only [PlatformMap.bufferAt, hwindow]
  cases b <;> rfl

theorem bufferAt_base_add {m : PlatformMap} {b : Buf} {a : Nat} (ha : a < bufSize b)
    (hc : ∀ c, c ≠ b → ¬PlatformMap.InBuf m c (PlatformMap.base m b + a)) :
    PlatformMap.bufferAt m (PlatformMap.base m b + a) = some (b, a) := by
  rw [bufferAt_of_only_inBuf ⟨by omega, by omega⟩ hc, Nat.add_sub_cancel_left]

theorem bufferAt_of_not_inBuf {m : PlatformMap} {addr : Nat} (h : ∀ b, ¬PlatformMap.InBuf m b addr) :
    PlatformMap.bufferAt m addr = none :=
  List.findSome?_eq_none_iff.2 fun b _ => if_neg (h b)

/-! ## Moves by platform address -/

section
variable {s : State} {addr : Nat}

theorem move_busWrite_of_offsetAt {off : Byte} (v : Byte) (h : PlatformMap.offsetAt s.params.platformMap addr = some off) :
    move (.busWrite addr v) s = .next (hostWrite off v s) :=
  move_eq_of_resolve (e' := .write off v) (by simp only [Event.resolve, h])

theorem move_busRead_of_offsetAt {off : Byte} (h : PlatformMap.offsetAt s.params.platformMap addr = some off) :
    move (.busRead addr) s = .next (hostRead off s) :=
  move_eq_of_resolve (e' := .read off) (by simp only [Event.resolve, h])

theorem move_busWrite_of_bufferAt {b : Buf} {a : Nat} (v : Byte) (ho : PlatformMap.offsetAt s.params.platformMap addr = none)
    (hb : PlatformMap.bufferAt s.params.platformMap addr = some (b, a)) :
    move (.busWrite addr v) s = .next (hostBufWrite b a v s) :=
  move_eq_of_resolve (e' := .bufWrite b a v) (by simp only [Event.resolve, ho, hb])

theorem move_busRead_of_bufferAt {b : Buf} {a : Nat} (ho : PlatformMap.offsetAt s.params.platformMap addr = none)
    (hb : PlatformMap.bufferAt s.params.platformMap addr = some (b, a)) :
    move (.busRead addr) s = .next (hostBufRead b a s) :=
  move_eq_of_resolve (e' := .bufRead b a) (by simp only [Event.resolve, ho, hb])

theorem move_busWrite_outside (v : Byte) (ho : PlatformMap.offsetAt s.params.platformMap addr = none)
    (hb : PlatformMap.bufferAt s.params.platformMap addr = none) : move (.busWrite addr v) s = .next s := by
  simp only [move, Event.resolve, ho, hb]

theorem move_busRead_outside (ho : PlatformMap.offsetAt s.params.platformMap addr = none)
    (hb : PlatformMap.bufferAt s.params.platformMap addr = none) : move (.busRead addr) s = .next s := by
  simp only [move, Event.resolve, ho, hb]

end

/-! ## The statement -/

/-- Settles O18: the head of the agenda says whose move it is; the engine's goes by what `fetch` and `decode` answer, an access by
platform address by the window that holds the address. -/
theorem stepRunsTheDecodedInstruction : Obligations.StepRunsTheDecodedInstruction := by
  intro s
  refine ⟨fun sp bs i hf hd => ⟨fun h => ?decoded, fun rest h => ?decoded_move⟩,
    fun sp bs c hf hd => ⟨fun h => ?reserved, fun rest h => ?reserved_move⟩, fun hidle h => ?idle, fun rest => ?agenda⟩
  case decoded => rw [step_of_empty_agenda h, engineStep_of_decode hf hd]
  case decoded_move =>
    rw [step_of_agenda_cons h]
    exact engineStep_of_decode ((fetch_set_agenda s rest).trans hf) hd
  case reserved => rw [step_of_empty_agenda h, engineStep_of_reserved hf hd]
  case reserved_move =>
    rw [step_of_agenda_cons h]
    exact engineStep_of_reserved ((fetch_set_agenda s rest).trans hf) hd
  case idle => rw [step_of_empty_agenda h, engineStep_of_fetch_none (fetch_of_idle hidle)]
  case agenda =>
    intro s' map window inRegs inBuf
    have hwindow (b : Buf) : window b = PlatformMap.base map b := by cases b <;> rfl
    have hinBuf {b : Buf} {addr : Nat} (h : ¬inBuf b addr) : ¬PlatformMap.InBuf map b addr := by
      rwa [PlatformMap.InBuf, ← hwindow]
    have hstep {e : Event} (h : s.env.agenda = e :: rest) : step s = move e s' := step_of_agenda_cons h
    refine ⟨fun _ _ h => hstep h, fun _ h => hstep h, fun _ _ _ h => hstep h, fun _ _ h => hstep h, ?register_write,
      ?register_read, ?buffer_byte, ?outside, fun h => ⟨?done, ?not_done⟩, fun _ h => hstep h, fun _ h => hstep h,
      fun _ _ h => hstep h, fun _ h => hstep h⟩
    case register_write => exact fun off v h => (hstep h).trans (move_busWrite_of_offsetAt v (offsetAt_regs_add map off))
    case register_read => exact fun off h => (hstep h).trans (move_busRead_of_offsetAt (offsetAt_regs_add map off))
    case buffer_byte =>
      intro b a ha hregs hothers
      have ho : PlatformMap.offsetAt map (window b + a) = none := offsetAt_of_not_inRegs hregs
      have hb : PlatformMap.bufferAt map (window b + a) = some (b, a) := by
        rw [hwindow] at hothers ⊢
        exact bufferAt_base_add ha fun c hc => hinBuf (hothers c hc)
      exact ⟨fun v h => (hstep h).trans (move_busWrite_of_bufferAt v ho hb),
        fun h => (hstep h).trans (move_busRead_of_bufferAt ho hb)⟩
    case outside =>
      intro addr hregs hbufs
      have ho : PlatformMap.offsetAt map addr = none := offsetAt_of_not_inRegs hregs
      have hb : PlatformMap.bufferAt map addr = none := bufferAt_of_not_inBuf fun b => hinBuf (hbufs b)
      exact ⟨fun v h => (hstep h).trans (move_busWrite_outside v ho hb), fun h => (hstep h).trans (move_busRead_outside ho hb)⟩
    case done => exact fun hd => (hstep h).trans (congrArg _ (hostWaitDone_of_done (s := s') hd))
    case not_done => exact fun hd => (hstep h).trans (congrArg _ (hostWaitDone_of_not_done (s := s') hd))

end Sys2Proof.Machine
end

section
/-! The host's accesses: what a read of each register gives, and what a write that is let through or refused changes. The
reset values, acceptance, the register map and the reach of host writes are settled here. -/

namespace Sys2Proof.Machine

/-! ## Register offsets (10_state.md R23, R44) -/

theorem regMap_nodup : regMap.Nodup := by decide

/-- No register has two offsets. -/
theorem offset_unique {off off' : Byte} {r : Reg} (h : regAt off = some r) (h' : regAt off' = some r) : off = off' := by
  have hlt : off.toNat < regMap.length := (List.getElem?_eq_some_iff.1 h).1
  exact BitVec.eq_of_toNat_eq ((List.getElem?_inj hlt regMap_nodup).1 (h.trans h'.symm))

theorem regAt_eq_status_iff {off : Byte} : regAt off = some .status ↔ off = 0x02 :=
  ⟨fun h => offset_unique h rfl, fun h => h ▸ rfl⟩

theorem regAt_of_reserved {off : Byte} (h : 0x18 ≤ off.toNat) : regAt off = none := List.getElem?_eq_none h

/-! ## Register bytes -/

section
variable {n : Nat}

/-- Unused high bits read 0. -/
theorem zero_append_eq_ofNat {k : Nat} (x : BitVec n) : (0#k ++ x) = BitVec.ofNat (k + n) x.toNat := by
  apply BitVec.eq_of_toNat_eq
  have hlt : x.toNat < 2 ^ (k + n) := x.isLt.trans_le (Nat.pow_le_pow_right (by decide) (Nat.le_add_left n k))
  simp [Nat.mod_eq_of_lt hlt]

/-- A byte of a multi-byte register, by division. -/
theorem extractByte_eq_ofNat (x : BitVec n) (a : Nat) : x.extractLsb' a 8 = BitVec.ofNat 8 (x.toNat / 2 ^ a) := by
  rw [BitVec.extractLsb', Nat.shiftRight_eq_div_pow]

theorem ofNat_mod_byte (m : Nat) : BitVec.ofNat 8 (m % 256) = BitVec.ofNat 8 m := by
  apply BitVec.eq_of_toNat_eq; simp

end

/-- Two bytes as one 16-bit register. -/
theorem append_bytes_eq_ofNat (hi lo : Byte) : (hi ++ lo : BitVec 16) = BitVec.ofNat 16 (hi.toNat * 256 + lo.toNat) := by
  apply BitVec.eq_of_toNat_eq
  have hhi := hi.isLt
  have hlo := lo.isLt
  rw [BitVec.toNat_append, ← Nat.shiftLeft_add_eq_or_of_lt hlo, BitVec.toNat_ofNat, Nat.shiftLeft_eq]
  omega

/-- STATUS holds BUSY, DONE, OVR and ATTACHED in its bits 0 to 3 (10_state.md R27). -/
theorem statusByte_eq_ofNat (s : State) :
    statusByte s = BitVec.ofNat 8 ((if s.reg.busy then 1 else 0) + (if s.reg.done then 2 else 0) +
      (if s.reg.ovr then 4 else 0) + (if s.link.attached then 8 else 0)) := by
  unfold statusByte
  cases s.reg.busy <;> cases s.reg.done <;> cases s.reg.ovr <;> cases s.link.attached <;> rfl

/-! ## Reads -/

section
variable {s : State} {off : Byte} {r : Reg} {v : Byte}

theorem hostRead_of_reserved (h : 0x18 ≤ off.toNat) :
    hostRead off s = { s with env.hostReads := s.env.hostReads ++ [0x00] } := by
  simp only [hostRead, regAt_of_reserved h]; rfl

/-- A register that R49 does not leave open gives its byte. -/
theorem hostRead_of_regByte (hr : regAt off = some r) (h : s.reg.busy = false ∨ readableWhileBusy r = true)
    (hv : regByte s r = v) : hostRead off s = { s with env.hostReads := s.env.hostReads ++ [v] } := by
  have hopen : (s.reg.busy && !readableWhileBusy r) = false := by rcases h with h | h <;> simp [h]
  simp only [hostRead, hr, hopen, hv]; rfl

theorem hostRead_readable (hr : regAt off = some r) (h : readableWhileBusy r = true) (hv : regByte s r = v) :
    hostRead off s = { s with env.hostReads := s.env.hostReads ++ [v] } := hostRead_of_regByte hr (.inr h) hv

theorem hostRead_of_not_busy (hb : s.reg.busy = false) (hr : regAt off = some r) (hv : regByte s r = v) :
    hostRead off s = { s with env.hostReads := s.env.hostReads ++ [v] } := hostRead_of_regByte hr (.inl hb) hv

end

theorem hostRead_gives_one_byte (s : State) (off : Byte) :
    ∃ (v : Byte) (n : Nat), hostRead off s = { s with env.hostReads := s.env.hostReads ++ [v], env.freeReads := n } := by
  obtain ⟨v, h⟩ | h := hostRead_cases s off
  · exact ⟨v, s.env.freeReads, h⟩
  · exact ⟨_, _, h⟩

theorem hostBufRead_beyond_size {s : State} {b : Buf} {a : Nat} (h : bufSize b ≤ a) :
    hostBufRead b a s = { s with env.hostReads := s.env.hostReads ++ [0x00] } := if_pos h

/-! ## Writes -/

section
variable {s : State} {off v : Byte}

theorem hostWrite_of_busy (hb : s.reg.busy = true) (h : off ≠ 0x02) : hostWrite off v s = { s with reg.ovr := true } := by
  rw [hostWrite, if_neg (mt regAt_eq_status_iff.1 h), if_pos hb]; rfl

theorem hostWrite_status (s : State) (v : Byte) :
    hostWrite 0x02 v s = if v.getLsbD 2 then { s with reg.ovr := false } else s := rfl

theorem hostWrite_of_not_busy (hb : s.reg.busy = false) (h : off ≠ 0x02) : hostWrite off v s = writeFree off v s := by
  rw [hostWrite, if_neg (mt regAt_eq_status_iff.1 h), hb]; rfl

/-- What a write that is let through can do: it is accepted as a command, replaces a byte of an operand register, or is
ignored. -/
theorem writeFree_cases (off v : Byte) (s : State) :
    (off = 0x00 ∧ writeFree off v s = accept v s) ∨
    (off = 0x01 ∧ writeFree off v s = { s with reg.arg := v }) ∨
    (off = 0x14 ∧ writeFree off v s = { s with reg.fuLen := v ++ s.reg.fuLen.extractLsb' 0 8 }) ∨
    (off = 0x15 ∧ writeFree off v s = { s with reg.fuLen := s.reg.fuLen.extractLsb' 8 8 ++ v }) ∨
    (off = 0x16 ∧ writeFree off v s = { s with reg.fwLen := v ++ s.reg.fwLen.extractLsb' 0 8 }) ∨
    (off = 0x17 ∧ writeFree off v s = { s with reg.fwLen := s.reg.fwLen.extractLsb' 8 8 ++ v }) ∨
    writeFree off v s = s := by
  unfold writeFree
  split
  · next h => exact .inl ⟨offset_unique h rfl, rfl⟩
  · next h => exact .inr (.inl ⟨offset_unique h rfl, rfl⟩)
  · next h => exact .inr (.inr (.inl ⟨offset_unique h rfl, rfl⟩))
  · next h => exact .inr (.inr (.inr (.inl ⟨offset_unique h rfl, rfl⟩)))
  · next h => exact .inr (.inr (.inr (.inr (.inl ⟨offset_unique h rfl, rfl⟩))))
  · next h => exact .inr (.inr (.inr (.inr (.inr (.inl ⟨offset_unique h rfl, rfl⟩)))))
  · exact .inr (.inr (.inr (.inr (.inr (.inr rfl)))))

/-- STATUS, the result registers and what lies between them and FU_LEN ignore a write, and so do the reserved offsets. -/
theorem writeFree_of_readOnly (h : 0x02 ≤ off.toNat) (h' : off.toNat ≤ 0x13 ∨ 0x18 ≤ off.toNat) : writeFree off v s = s := by
  obtain ⟨rfl, -⟩ | ⟨rfl, -⟩ | ⟨rfl, -⟩ | ⟨rfl, -⟩ | ⟨rfl, -⟩ | ⟨rfl, -⟩ | heq := writeFree_cases off v s
  case inr.inr.inr.inr.inr.inr => exact heq
  all_goals exact absurd (And.intro h h') (by decide)

theorem hostWrite_of_readOnly (hb : s.reg.busy = false) (h : 0x03 ≤ off.toNat) (h' : off.toNat ≤ 0x13 ∨ 0x18 ≤ off.toNat) :
    hostWrite off v s = s := by
  have hne : off ≠ 0x02 := by rintro rfl; exact absurd h (by decide)
  rw [hostWrite_of_not_busy hb hne, writeFree_of_readOnly (Nat.le_of_succ_le h) h']

end

section
variable {s : State} {b : Buf} {a : Nat} {v : Byte}

theorem hostBufWrite_of_busy (hb : s.reg.busy = true) : hostBufWrite b a v s = { s with reg.ovr := true } := if_pos hb

theorem hostBufWrite_of_writable (hb : s.reg.busy = false) (h : hostWritable b = true) :
    hostBufWrite b a v s = { s with buf := s.buf.setByte b a v } := by simp [hostBufWrite, hb, h]

theorem hostBufWrite_of_not_writable (hb : s.reg.busy = false) (h : hostWritable b = false) :
    hostBufWrite b a v s = s := by simp [hostBufWrite, hb, h]

/-- A byte beyond a buffer's size is not stored (20_memory.md R61). -/
theorem setByte_beyond_size {m : Buffers} (h : bufSize b ≤ a) : m.setByte b a v = m := if_neg (Nat.not_lt.2 h)

theorem hostWritable_iff : hostWritable b = true ↔ b ≠ .rx ∧ b ≠ .info := by cases b <;> simp [hostWritable]

end

/-! ## The statements -/

/-- Settles O1: the default parameters fix every value that depends on one. -/
theorem resetStateHasTheResetValues : Obligations.ResetStateHasTheResetValues := by
  have hbaud {off v : Byte} {r : Reg} (hr : regAt off = some r) (hv : regByte State.reset r = v) :
      (hostRead off State.reset).env.hostReads = [v] := by rw [hostRead_of_not_busy rfl hr hv]; rfl
  exact ⟨rfl, rfl, rfl, hbaud (r := .baud3) rfl rfl, hbaud (r := .baud2) rfl rfl, hbaud (r := .baud1) rfl rfl,
    hbaud (r := .baud0) rfl rfl⟩

/-- Settles O3: CMD is a register that a write reaches only while BUSY = 0. -/
theorem commandWriteIsAcceptedUnlessBusy : Obligations.CommandWriteIsAcceptedUnlessBusy := by
  refine fun c s => ⟨fun hb => ⟨?accepted, hostRead_of_not_busy (r := .cmd) hb rfl rfl⟩, fun hb => ?refused⟩
  case accepted => rw [hostWrite_of_not_busy hb (by decide)]; rfl
  case refused => rw [hostWrite_of_busy hb (by decide)]; exact ⟨rfl, rfl⟩

/-- Settles O5: no register stands at a reserved offset. -/
theorem reservedOffsetsReadZeroAndIgnoreWrites : Obligations.ReservedOffsetsReadZeroAndIgnoreWrites := by
  intro off v s h
  have hne : off ≠ 0x02 := by rintro rfl; exact absurd h (by decide)
  exact ⟨hostRead_of_reserved h, fun hb => hostWrite_of_readOnly hb (by omega) (.inr h), fun hb => hostWrite_of_busy hb hne⟩

/-- Settles O6: each offset's register, and its byte as a number. -/
theorem registerReadsFollowTheMap : Obligations.RegisterReadsFollowTheMap := by
  intro s gives flag status
  have hrts : regByte s .rts = if s.reg.rts then 1 else 0 := by simp only [regByte]; cases s.reg.rts <;> rfl
  have hword (x : BitVec 16) : x.extractLsb' 0 8 = BitVec.ofNat 8 (x.toNat % 256) :=
    (extractByte_eq_ofNat x 0).trans (by rw [ofNat_mod_byte, pow_zero, Nat.div_one])
  have hlong (x : BitVec 32) (a : Nat) : x.extractLsb' a 8 = BitVec.ofNat 8 (x.toNat / 2 ^ a % 256) :=
    (extractByte_eq_ofNat x a).trans (ofNat_mod_byte _).symm
  have hbaud0 : s.reg.linkBaud.extractLsb' 0 8 = BitVec.ofNat 8 (s.reg.linkBaud.toNat % 256) :=
    (hlong _ 0).trans (by rw [pow_zero, Nat.div_one])
  refine ⟨⟨?_, ?_, ?_, ?_, ?_, ?_, ?_, ?_, ?_, ?_, ?_⟩, fun hb => ⟨?_, ?_, ?_, ?_, ?_, ?_, ?_, ?_, ?_, ?_, ?_, ?_, ?_⟩,
    hostRead_gives_one_byte s⟩
  · exact hostRead_readable (r := .status) rfl rfl (statusByte_eq_ofNat s)
  · exact hostRead_readable (r := .result) rfl rfl rfl
  · exact hostRead_readable (r := .detail) rfl rfl rfl
  · exact hostRead_readable (r := .fwPhase) rfl rfl (zero_append_eq_ofNat _)
  · exact hostRead_readable (r := .chunkHi) rfl rfl (extractByte_eq_ofNat _ 8)
  · exact hostRead_readable (r := .chunkLo) rfl rfl (hword _)
  · exact hostRead_readable (r := .rts) rfl rfl hrts
  · exact hostRead_readable (r := .baud3) rfl rfl (extractByte_eq_ofNat _ 24)
  · exact hostRead_readable (r := .baud2) rfl rfl (hlong _ 16)
  · exact hostRead_readable (r := .baud1) rfl rfl (hlong _ 8)
  · exact hostRead_readable (r := .baud0) rfl rfl hbaud0
  · exact hostRead_of_not_busy (r := .cmd) hb rfl rfl
  · exact hostRead_of_not_busy (r := .arg) hb rfl rfl
  · exact hostRead_of_not_busy (r := .sel) hb rfl (zero_append_eq_ofNat _)
  · exact hostRead_of_not_busy (r := .idbyte) hb rfl rfl
  · exact hostRead_of_not_busy (r := .ckmask) hb rfl (zero_append_eq_ofNat _)
  · exact hostRead_of_not_busy (r := .found0) hb rfl rfl
  · exact hostRead_of_not_busy (r := .exp0) hb rfl rfl
  · exact hostRead_of_not_busy (r := .found1) hb rfl rfl
  · exact hostRead_of_not_busy (r := .exp1) hb rfl rfl
  · exact hostRead_of_not_busy (r := .fuLenHi) hb rfl (extractByte_eq_ofNat _ 8)
  · exact hostRead_of_not_busy (r := .fuLenLo) hb rfl (hword _)
  · exact hostRead_of_not_busy (r := .fwLenHi) hb rfl (extractByte_eq_ofNat _ 8)
  · exact hostRead_of_not_busy (r := .fwLenLo) hb rfl (hword _)

/-- Settles O7: the writable registers are those of `writeFree_cases`, the writable buffers those of `hostWritable`. -/
theorem hostWritesReachOnlyWritableStorage : Obligations.HostWritesReachOnlyWritableStorage := by
  have hhigh (v : Byte) (x : BitVec 16) : v ++ x.extractLsb' 0 8 = BitVec.ofNat 16 (v.toNat * 256 + x.toNat % 256) := by
    rw [append_bytes_eq_ofNat, BitVec.extractLsb'_toNat, Nat.shiftRight_zero]
  have hlow (v : Byte) (x : BitVec 16) : x.extractLsb' 8 8 ++ v = BitVec.ofNat 16 (x.toNat / 256 * 256 + v.toNat) := by
    have hx : x.toNat / 2 ^ 8 < 2 ^ 8 := by have := x.isLt; omega
    rw [append_bytes_eq_ofNat, extractByte_eq_ofNat, BitVec.toNat_ofNat, Nat.mod_eq_of_lt hx]; rfl
  intro s v
  refine ⟨fun hb => ⟨?arg, ?fuLenHi, ?fuLenLo, ?fwLenHi, ?fwLenLo, fun off h h' => hostWrite_of_readOnly hb h (.inl h')⟩,
    fun b a => ⟨hostBufRead_beyond_size, fun hb h => ?ignored, fun hb _ hrx hinfo => ?stored⟩⟩
  case arg => exact hostWrite_of_not_busy hb (by decide)
  case fuLenHi => rw [hostWrite_of_not_busy hb (by decide), ← hhigh]; rfl
  case fuLenLo => rw [hostWrite_of_not_busy hb (by decide), ← hlow]; rfl
  case fwLenHi => rw [hostWrite_of_not_busy hb (by decide), ← hhigh]; rfl
  case fwLenLo => rw [hostWrite_of_not_busy hb (by decide), ← hlow]; rfl
  case stored => exact hostBufWrite_of_writable hb (hostWritable_iff.2 ⟨hrx, hinfo⟩)
  case ignored =>
    cases hw : hostWritable b with
    | false => exact hostBufWrite_of_not_writable hb hw
    | true =>
      obtain ⟨hrx, hinfo⟩ := hostWritable_iff.1 hw
      have ha : bufSize b ≤ a := h.resolve_right (not_or.2 ⟨hrx, hinfo⟩)
      rw [hostBufWrite_of_writable hb hw, setByte_beyond_size ha]

end Sys2Proof.Machine
end

section
/-! What stands at the sequencer position and which meaning it runs: `fetch` place by place, and the meanings that the device
bytes, READY and the packets share. -/

namespace Sys2Proof.Machine

/-! ## What is fetched (10_state.md R24; log 2, log 25, log 26) -/

/-- The places where the operation's own row stands: no device byte, poll read or packet. -/
def Point.isOwn : Point → Bool
  | .send | .sendNext | .pollRead _ _ | .build _ | .request _ | .reply _ | .gotReply _ _ => false
  | _ => true

section
variable {s : State} {op : Byte} {k : Nat} {p : Point}

theorem fetch_own (h : s.seq = .busy op k p) (hp : p.isOwn = true) : fetch s = some (.host, [op, s.int.oparg]) := by
  simp only [fetch, h]
  cases p with
  | send | sendNext | pollRead | build | request | reply | gotReply => cases hp
  | _ => rfl

theorem fetch_send (h : s.seq = .busy op k .send) : fetch s = some (.device, [deviceByte op s]) := by simp only [fetch, h]

theorem fetch_sendNext (h : s.seq = .busy op k .sendNext) : fetch s = some (.device, [0x05]) := by simp only [fetch, h]

theorem fetch_pollRead {failed : Nat} {aft : AfterPoll} (h : s.seq = .busy op k (.pollRead failed aft)) :
    fetch s = some (.inbound, [0x05]) := by simp only [fetch, h]

theorem fetch_request {st : Stage} (h : s.seq = .busy op k p) (hp : p = .build st ∨ p = .request st) :
    fetch s = some (.packet, [0x46, 0x55, st.reqOp]) := by
  obtain rfl | rfl := hp <;> simp only [fetch, h]

theorem fetch_reply {st : Stage} (h : s.seq = .busy op k p) (hp : p = .reply st ∨ ∃ r, p = .gotReply st r) :
    fetch s = some (.packet, [0x46, 0x55, st.repOp]) := by
  obtain rfl | ⟨r, rfl⟩ := hp <;> simp only [fetch, h]

theorem fetch_ne_none (h : s.seq = .busy op k p) : fetch s ≠ none := by
  simp only [fetch, h]
  cases p <;> exact Option.some_ne_none _

end

/-- Settles O19: each place has its lemma above; the places that are left are the operation's own. -/
theorem fetchFollowsTheSequencer : Obligations.FetchFollowsTheSequencer := by
  intro s op k p h
  have hsend {b : Byte} (hp : p = .send) (hb : deviceByte op s = b) : fetch s = some (.device, [b]) := by
    subst hp hb; exact fetch_send h
  refine ⟨fun hp => ?start, fun hp ho => hsend hp ?_, fun hp ho => hsend hp ?_, fun hp ho => hsend hp ?_,
    fun hp ho => hsend hp ?_, fun hp ho => hsend hp ?_, fun hp ho => hsend hp ?_, fun hp => ?sendNext,
    fun failed aft hp => ?pollRead, fun st hp => fetch_request h hp, fun st hp => fetch_reply h hp,
    fun hsend hnext hpoll hpacket => fetch_own h ?own⟩
  case start => subst hp; exact fetch_own h rfl
  case sendNext => subst hp; exact fetch_sendNext h
  case pollRead => subst hp; exact fetch_pollRead h
  case own =>
    cases p with
    | send => exact absurd rfl hsend
    | sendNext => exact absurd rfl hnext
    | pollRead failed aft => exact absurd rfl (hpoll failed aft)
    | build st => exact absurd rfl (hpacket st).1
    | request st => exact absurd rfl (hpacket st).2.1
    | reply st => exact absurd rfl (hpacket st).2.2.1
    | gotReply st r => exact absurd rfl ((hpacket st).2.2.2 r)
    | _ => rfl
  all_goals subst ho; rfl

/-! ## What a fetched code word runs -/

/-- A device byte's row sends that byte. -/
theorem exec_of_decodeDevice {b : Byte} {i : Instr} (h : decodeDevice b = .ok i) (s : State) :
    exec i s = sendDeviceByte b s := by
  unfold decodeDevice at h
  iterate 11
    obtain ⟨rfl, h⟩ | ⟨-, h⟩ := ite_eq_iff.1 h
    · obtain rfl := Except.ok.inj h; rfl
  cases h

theorem exec_of_decodeInbound {b : Byte} {i : Instr} (h : decodeInbound b = .ok i) (s : State) :
    exec i s = execDevReady s := by
  unfold decodeInbound at h
  split_ifs at h
  cases h; rfl

/-- The row of a phase's request. -/
def Stage.requestInstr : Stage → Instr
  | .en => .fuReqEn
  | .mode => .fuReqMode
  | .di => .fuReqDi
  | .ct => .fuReqCt
  | .part1 => .fuReqPart1
  | .part2 => .fuReqPart2
  | .dt => .fuReqDt
  | .ad => .fuReqAd

/-- The row of a phase's reply. -/
def Stage.replyInstr : Stage → Instr
  | .en => .fuRepEn
  | .mode => .fuRepMode
  | .di => .fuRepDi
  | .ct => .fuRepCt
  | .part1 => .fuRepPart1
  | .part2 => .fuRepPart2
  | .dt => .fuRepDt
  | .ad => .fuRepAd

theorem decode_reqOp (st : Stage) : decode .packet [0x46, 0x55, st.reqOp] = .ok st.requestInstr := by cases st <;> rfl

theorem decode_repOp (st : Stage) : decode .packet [0x46, 0x55, st.repOp] = .ok st.replyInstr := by cases st <;> rfl

theorem exec_requestInstr (st : Stage) (s : State) : exec st.requestInstr s = requestStep st s := by cases st <;> rfl

theorem exec_replyInstr (st : Stage) (s : State) : exec st.replyInstr s = replyStep st s := by cases st <;> rfl

end Sys2Proof.Machine
end

section
/-! Everything one engine step of an operation can do, said once. The step makes updates of the operation (`Within`), after
which the engine goes on at a place of the operation or the operation ends (`OpStep`). What the updates change is `Kept` and,
where the step stood at a place of the operation, `Allowed`: the writers table of 10_state.md R50 and the ranges of the
registers. -/

namespace Sys2Proof.Machine

/-- The ranges of the invariant that an operation's updates must keep (10_state.md R34, R39; 20_memory.md R60). -/
structure InRange (s : State) : Prop where
  buffers : s.buf.wf
  sel : s.reg.sel.toNat ≤ 4
  phase : s.reg.fwPhase.toNat ≤ 10
  chunk : s.reg.chunk.toNat < Config.fwNChunks

/-- The engine stands at a place of operation `op`, its registers in range. -/
structure InPlace (op : Byte) (p : Point) (s : State) : Prop where
  range : InRange s
  place : legalAt op s p = true

/-- What no step of an operation writes before its ending step, wherever the engine stands. -/
structure Kept (op : Byte) (s u : State) : Prop where
  seq : ∃ k p, u.seq = .busy op k p
  params : u.params = s.params
  attached : u.link.attached = s.link.attached
  cmd : u.reg.cmd = s.reg.cmd
  arg : u.reg.arg = s.reg.arg
  fwLen : u.reg.fwLen = s.reg.fwLen
  ovr : u.reg.ovr = s.reg.ovr
  busy : u.reg.busy = s.reg.busy
  done : u.reg.done = s.reg.done
  result : u.reg.result = s.reg.result
  detail : u.reg.detail = s.reg.detail
  oparg : u.int.oparg = s.int.oparg
  fw : u.buf.fw = s.buf.fw
  epoch : u.buf.epoch = s.buf.epoch

/-- What the writers table (10_state.md R50) lets the steps of `op` change, and the ranges after it. -/
structure Allowed (op : Byte) (s u : State) : Prop where
  sel : op ≠ 0x10 → u.reg.sel = s.reg.sel
  idbyte : op ≠ 0x13 → u.reg.idbyte = s.reg.idbyte
  checks : op ∉ [0x01, 0x02, 0x14, 0x15] →
    u.reg.ckmask = s.reg.ckmask ∧ u.reg.found0 = s.reg.found0 ∧ u.reg.exp0 = s.reg.exp0 ∧
      u.reg.found1 = s.reg.found1 ∧ u.reg.exp1 = s.reg.exp1
  update : op ≠ 0x20 →
    u.reg.fwPhase = s.reg.fwPhase ∧ u.reg.chunk = s.reg.chunk ∧ u.reg.rts = s.reg.rts ∧
      u.reg.linkBaud = s.reg.linkBaud ∧ u.buf.rx = s.buf.rx ∧ u.buf.info = s.buf.info ∧
      u.int.savedBaud = s.int.savedBaud ∧ u.int.savedRts = s.int.savedRts ∧ u.int.entered = s.int.entered
  frame : op ∉ [0x04, 0x20] → u.reg.fuLen = s.reg.fuLen ∧ u.buf.frame = s.buf.frame
  edid : op ≠ 0x14 → u.buf.edid = s.buf.edid
  range : InRange u

/-- `u` is `s` after updates that a step of `op` at `p` makes. -/
structure Within (op : Byte) (p : Point) (s u : State) : Prop where
  kept : Kept op s u
  allowed : InPlace op p s → Allowed op s u

/-- One engine step of `op` at `p`, from `s`: after its updates the engine goes on at a place of the operation, or the operation
ends with an outcome that occurs. -/
inductive OpStep (op : Byte) (p : Point) (s : State) : State → Prop where
  | goesOn {u : State} {q : Point} (hu : Within op p s u) (hq : InPlace op p s → legalAt op u q = true) :
      OpStep op p s (u.goto q)
  | ends {u : State} {r : ResultCode} {d : DetailCode} (hu : Within op p s u)
      (ho : InPlace op p s → legalOutcome r d = true) : OpStep op p s (finish r d u)

/-! ## Places -/

/-- Whether a place is one of the operation's depends on a few fields only. -/
theorem legalAt_congr {op : Byte} {s u : State} (hphase : u.reg.fwPhase = s.reg.fwPhase) (hchunk : u.reg.chunk = s.reg.chunk)
    (hint : u.int = s.int) (hparams : u.params = s.params) (q : Point) : legalAt op u q = legalAt op s q := by
  cases q <;> simp only [legalAt, inUpdate, hphase, hchunk, hint, hparams]

theorem legalOutcome_of_ending {op : Byte} {s : State} {r : ResultCode} {d : DetailCode}
    (h : legalAt op s (.ending r d) = true) : legalOutcome r d = true := (Bool.and_eq_true_iff.1 h).1

/-- Going on where the engine stands changes nothing: a hold. -/
theorem goto_here {s : State} {op : Byte} {k : Nat} {p : Point} (h : s.seq = .busy op k p) : s.goto p = s := by
  unfold State.goto; rw [h, seqGoto_busy, ← h]

/-- Where an update in progress goes on after a phase is a place of it (43_fw_update.md R220, R230, R233). -/
theorem legalAt_afterPhase {op : Byte} {s : State} {st : Stage} (hin : inUpdate op s = true)
    (hphase : s.reg.fwPhase = st.phaseCode) : legalAt op s (afterPhase s st) = true := by
  cases st with
  | part2 =>
    by_cases hc : s.reg.chunk.toNat + 1 < Config.fwNChunks <;>
      simp [afterPhase, legalAt, hin, hphase, Stage.phaseCode, hc]
  | _ => simp [afterPhase, legalAt, hin, hphase, Stage.phaseCode]

theorem legalAt_ending_of_update {op : Byte} {s : State} {r : ResultCode} {d : DetailCode} (hin : inUpdate op s = true)
    (ho : legalOutcome r d = true) : legalAt op s (.ending r d) = true := by simp [legalAt, hin, ho]

/-- READ_EDID and WRITE_EDID may end from any of their places. -/
theorem legalAt_ending_of_edid {op : Byte} {s : State} {r : ResultCode} {d : DetailCode}
    (hop : op = opReadEdid ∨ op = opWriteEdid) (ho : legalOutcome r d = true) : legalAt op s (.ending r d) = true := by
  obtain rfl | rfl := hop <;> simp [legalAt, ho]

/-- The operations that send a device byte first (30_encoding.md R95). -/
theorem legalAt_send_iff {op : Byte} {s : State} :
    legalAt op s .send = true ↔
      (op = opSelect ∧ s.int.oparg.toNat ≤ 3) ∨ op = opCecConnect ∨ op = opCecDisconnect ∨ op = opIdentify ∨
        op = opReadEdid ∨ op = opWriteEdid := by
  simp [legalAt, or_assoc]

theorem legalAt_ending_of_send {op : Byte} {s : State} {r : ResultCode} {d : DetailCode} (h : legalAt op s .send = true)
    (ho : legalOutcome r d = true) : legalAt op s (.ending r d) = true := by
  obtain ⟨rfl, -⟩ | rfl | rfl | rfl | rfl | rfl := legalAt_send_iff.1 h <;> simp [legalAt, ho]

theorem legalAt_afterSend {op : Byte} {s : State} (h : legalAt op s .send = true) : legalAt op s (afterSend op) = true := by
  obtain ⟨rfl, hle⟩ | rfl | rfl | rfl | rfl | rfl := legalAt_send_iff.1 h
  · simp [afterSend, legalAt, hle]
  all_goals simp [afterSend, legalAt]

theorem legalAt_afterReady {op : Byte} {s u : State} {aft : AfterPoll}
    (hop : op = if aft = .readBlock0 then opReadEdid else opWriteEdid) : legalAt op u (afterReady aft s) = true := by
  subst hop
  cases aft with
  | wroteBlock0 => by_cases hext : extCount s = 1 <;> simp [afterReady, hext, legalAt, legalOutcome]
  | _ => simp [afterReady, legalAt, legalOutcome]

theorem phaseCode_le (st : Stage) : st.phaseCode.toNat ≤ 10 := by cases st <;> decide

/-! ## Outcomes -/

theorem legalOutcome_of_validResult {s : State} {d : DetailCode} (h : validResult s = some d) :
    legalOutcome .invalidData d = true ∧ legalOutcome .edidInvalid d = true := by
  obtain h' | h' | h' := validResult_cases s <;> cases h'.symm.trans h <;> exact ⟨rfl, rfl⟩

theorem legalOutcome_of_imageCheck {s : State} {d : DetailCode} (h : imageCheck s = some d) :
    legalOutcome .invalidData d = true := by
  obtain h' | h' | h' | h' := imageCheck_cases s <;> cases h'.symm.trans h <;> rfl

theorem legalOutcome_of_fuReplyCheck {b : Bytes} {op : Byte} {enter : Bool} {r : ResultCode} {d : DetailCode}
    (h : fuReplyCheck b op enter = some (r, d)) : legalOutcome r d = true := by
  obtain h' | h' | h' | h' | h' := fuReplyCheck_cases b op enter <;> cases h'.symm.trans h <;> rfl

theorem legalOutcome_of_phaseCheck {s : State} {st : Stage} {b : Bytes} {d : DetailCode} (h : phaseCheck s st b = some d) :
    legalOutcome .writeError d = true := by
  obtain h' | h' | h' | h' := phaseCheck_cases s st b <;> cases h'.symm.trans h <;> rfl

/-! ## Updates -/

section
variable {op : Byte} {k : Nat} {p : Point} {s u : State}

theorem Within.refl (h : s.seq = .busy op k p) : Within op p s s where
  kept := ⟨⟨k, p, h⟩, rfl, rfl, rfl, rfl, rfl, rfl, rfl, rfl, rfl, rfl, rfl, rfl, rfl⟩
  allowed hs :=
    { sel := fun _ => rfl, idbyte := fun _ => rfl, checks := fun _ => ⟨rfl, rfl, rfl, rfl, rfl⟩
      update := fun _ => ⟨rfl, rfl, rfl, rfl, rfl, rfl, rfl, rfl, rfl⟩, frame := fun _ => ⟨rfl, rfl⟩
      edid := fun _ => rfl, range := hs.range }

/-- A link primitive moves bytes, draws an answer and counts itself. -/
theorem Within.onLink (h : Within op p s u) (l : Link) (e : Env) (hl : l.attached = u.link.attached) :
    Within op p s { u with link := l, env := e, seq := u.seq.tick } where
  kept :=
    { h.kept with
      seq := by obtain ⟨k, q, hq⟩ := h.kept.seq; exact ⟨k + 1, q, by rw [hq, tick_busy]⟩
      attached := hl.trans h.kept.attached }
  allowed hs := { h.allowed hs with range := { (h.allowed hs).range with } }

theorem Within.drawn (h : Within op p s u) : Within op p s u.drawn where
  kept := { h.kept with }
  allowed hs := { h.allowed hs with range := { (h.allowed hs).range with } }

theorem Within.linkWrite (h : Within op p s u) (bs : Bytes) : Within op p s (linkWrite bs u) := h.onLink _ _ rfl

theorem Within.linkReadByte (h : Within op p s u) : Within op p s (linkReadByte u) := h.onLink _ _ rfl

theorem Within.linkReadFailed (h : Within op p s u) (n : Nat) : Within op p s (linkReadFailed n u) := h.onLink _ _ rfl

theorem Within.linkReadDone (h : Within op p s u) (n : Nat) : Within op p s (linkReadDone n u) := h.onLink _ _ rfl

theorem Within.linkClear (h : Within op p s u) : Within op p s (linkClear u) := h.onLink _ _ rfl

theorem Within.record (h : Within op p s u) (e : LinkEvent) : Within op p s (u.record e) := h.onLink _ _ rfl

theorem Within.sleep (h : Within op p s u) (ms : Nat) : Within op p s (sleep ms u) := h.record _

/-- The EDID operations write CKMASK and the block bytes. -/
theorem Within.checks (h : Within op p s u) (hop : op ∈ [0x01, 0x02, 0x14, 0x15]) (m : BitVec 2) (f0 e0 f1 e1 : Byte) :
    Within op p s
      { u with reg.ckmask := m, reg.found0 := f0, reg.exp0 := e0, reg.found1 := f1, reg.exp1 := e1 } where
  kept := { h.kept with }
  allowed hs :=
    { h.allowed hs with checks := fun hne => absurd hop hne, range := { (h.allowed hs).range with } }

theorem Within.ckEval (h : Within op p s u) (hop : op ∈ [0x01, 0x02, 0x14, 0x15]) (n : Nat) : Within op p s (ckEval n u) :=
  h.checks hop _ _ _ _ _

theorem Within.validEval (h : Within op p s u) (hop : op ∈ [0x01, 0x02, 0x14, 0x15]) : Within op p s (validEval u) := by
  unfold Machine.validEval
  split
  · exact h.checks hop _ _ _ _ _
  · exact h.ckEval hop _

theorem Within.setSel (h : Within 0x10 p s u) {x : BitVec 3} (hx : InPlace 0x10 p s → x.toNat ≤ 4) :
    Within 0x10 p s { u with reg.sel := x } where
  kept := { h.kept with }
  allowed hs :=
    { h.allowed hs with
      sel := fun hne => absurd rfl hne, range := { (h.allowed hs).range with sel := hx hs } }

theorem Within.setIdbyte (h : Within 0x13 p s u) (b : Byte) : Within 0x13 p s { u with reg.idbyte := b } where
  kept := { h.kept with }
  allowed hs :=
    { h.allowed hs with idbyte := fun hne => absurd rfl hne, range := { (h.allowed hs).range with } }

/-- The operations that write a buffer (10_state.md R50); none writes FW_BUF. -/
def writesBuf (op : Byte) : Buf → Prop
  | .edid => op = 0x14
  | .frame => op ∈ [0x04, 0x20]
  | .rx | .info => op = 0x20
  | .fw => False

/-- A byte-string write reaches no other buffer. -/
theorem mem_setBytes_other {m : Buffers} {b c : Buf} (hne : c ≠ b) (a : Nat) (bs : Bytes) :
    (m.setBytes b a bs).mem c = m.mem c := by
  induction bs generalizing m a with
  | nil => rfl
  | cons v t ih =>
    rw [Buffers.setBytes, ih, Buffers.setByte]
    split
    · exact mem_setMem_other m _ hne
    · rfl

theorem Within.setBytes (h : Within op p s u) {b : Buf} (hfw : .fw ≠ b) (hop : InPlace op p s → writesBuf op b) (a : Nat)
    (bs : Bytes) : Within op p s (u.setBytes b a bs) where
  kept :=
    { h.kept with
      fw := (mem_setBytes_other hfw a bs).trans h.kept.fw
      epoch := (setBytes_epoch u.buf b a bs).trans h.kept.epoch }
  allowed hs := by
    have hu := h.allowed hs
    have unwritten {c : Buf} (hc : ¬writesBuf op c) : (u.setBytes b a bs).buf.mem c = u.buf.mem c :=
      mem_setBytes_other (fun heq : c = b => hc (heq ▸ hop hs)) a bs
    exact
      { hu with
        update := fun hne => by
          obtain ⟨h1, h2, h3, h4, hrx, hinfo, hint⟩ := hu.update hne
          exact ⟨h1, h2, h3, h4, (unwritten (c := .rx) hne).trans hrx, (unwritten (c := .info) hne).trans hinfo, hint⟩
        frame := fun hne => (hu.frame hne).imp id (unwritten (c := .frame) hne).trans
        edid := fun hne => (unwritten (c := .edid) hne).trans (hu.edid hne)
        range := { hu.range with buffers := setBytes_wf hu.range.buffers b a bs } }

theorem Within.setFuLen (h : Within op p s u) (hop : InPlace op p s → op ∈ [0x04, 0x20]) (n : BitVec 16) :
    Within op p s { u with reg.fuLen := n } where
  kept := { h.kept with }
  allowed hs :=
    { h.allowed hs with
      frame := fun hne => absurd (hop hs) hne, range := { (h.allowed hs).range with } }

/-- FW_UPDATE writes its own registers. -/
theorem Within.setUpdate (h : Within 0x20 p s u) {phase : BitVec 4} {chunk : BitVec 16}
    (hphase : InPlace 0x20 p s → phase.toNat ≤ 10) (hchunk : InPlace 0x20 p s → chunk.toNat < Config.fwNChunks)
    (rts : Bool) (baud savedBaud : BitVec 32) (savedRts entered : Bool) :
    Within 0x20 p s
      { u with
        reg.fwPhase := phase, reg.chunk := chunk, reg.rts := rts, reg.linkBaud := baud
        int.savedBaud := savedBaud, int.savedRts := savedRts, int.entered := entered } where
  kept := { h.kept with }
  allowed hs :=
    { h.allowed hs with
      update := fun hne => absurd rfl hne
      range := { (h.allowed hs).range with phase := hphase hs, chunk := hchunk hs } }

theorem Within.linkSetRts (h : Within 0x20 p s u) (level : Bool) : Within 0x20 p s (linkSetRts level u) :=
  (h.setUpdate (fun hs => (h.allowed hs).range.phase) (fun hs => (h.allowed hs).range.chunk) level _ _ _ _).onLink _ _ rfl

theorem Within.linkSetBaud (h : Within 0x20 p s u) (r : BitVec 32) : Within 0x20 p s (linkSetBaud r u) := by
  obtain ⟨-, heq⟩ | ⟨-, heq⟩ := linkSetBaud_cases u r <;> rw [heq]
  · exact (h.setUpdate (fun hs => (h.allowed hs).range.phase) (fun hs => (h.allowed hs).range.chunk) _ r _ _ _).onLink _ _ rfl
  · exact h.drawn.record _

end

/-! ## Shared steps -/

section
variable {op : Byte} {k : Nat} {p : Point} {s u : State}

/-- An abort in its own step: the teardown of an update, or the end. -/
theorem raise_opStep (hu : Within op p s u) {r : ResultCode} {d : DetailCode}
    (ho : InPlace op p s → legalOutcome r d = true) : OpStep op p s (raise r d u) := by
  obtain ⟨hup, he, heq⟩ | ⟨-, heq⟩ := raise_cases u r d <;> rw [heq]
  · obtain ⟨k', q, hseq⟩ := hu.kept.seq
    rw [hseq, isUpdate_busy] at hup
    exact .goesOn hu fun hs => by simp only [legalAt, inUpdate, hup, he, ho hs, Bool.and_self]
  · exact .ends hu ho

/-- An abort after a primitive: the teardown of an update, or the ending step, is next. -/
theorem raiseNext_opStep (hu : Within op p s u) {r : ResultCode} {d : DetailCode}
    (hq : InPlace op p s → legalAt op u (.ending r d) = true) : OpStep op p s (raiseNext r d u) := by
  obtain ⟨hup, he, heq⟩ | ⟨-, heq⟩ := raiseNext_cases u r d <;> rw [heq]
  · obtain ⟨k', q, hseq⟩ := hu.kept.seq
    rw [hseq, isUpdate_busy] at hup
    exact .goesOn hu fun hs => by
      simp only [legalAt, inUpdate, hup, he, legalOutcome_of_ending (hq hs), Bool.and_self]
  · exact .goesOn hu hq

theorem ifAttached_opStep (hu : Within op p s u) {q : Point} (hq : InPlace op p s → legalAt op u q = true) :
    OpStep op p s (ifAttached (·.goto q) u) := by
  unfold ifAttached
  split
  · exact .goesOn hu hq
  · exact raise_opStep hu fun _ => rfl

/-- A hold, or any step after which the engine stands where it stood. -/
theorem OpStep.holds (hu : Within op p s u) (hseq : u.seq = .busy op k p) (hq : InPlace op p s → legalAt op u p = true) :
    OpStep op p s u := by
  have h := OpStep.goesOn hu hq
  rwa [goto_here hseq] at h

theorem ending_opStep {r : ResultCode} {d : DetailCode} (h : s.seq = .busy op k (.ending r d)) :
    OpStep op (.ending r d) s (finish r d s) := .ends (.refl h) fun hs => legalOutcome_of_ending hs.place

theorem sleepThen_opStep (h : s.seq = .busy op k p) {ms : Nat} {q : Point} (hq : InPlace op p s → legalAt op s q = true) :
    OpStep op p s (sleepThen ms q s) :=
  .goesOn ((Within.refl h).sleep ms) fun hs => (legalAt_congr rfl rfl rfl rfl q).trans (hq hs)

theorem transmit_opStep (h : s.seq = .busy op k p) {bs : Bytes} {q : Point} (hq : InPlace op p s → legalAt op s q = true)
    (hfail : InPlace op p s → legalAt op s (.ending .writeError .linkWrite) = true) : OpStep op p s (transmit bs q s) := by
  have hu : Within op p s (linkWrite bs s) := (Within.refl h).linkWrite bs
  obtain ⟨-, heq⟩ | ⟨-, heq⟩ := transmit_cases s bs q <;> rw [heq]
  · exact .goesOn hu fun hs => (legalAt_congr rfl rfl rfl rfl q).trans (hq hs)
  · exact raiseNext_opStep hu fun hs => (legalAt_congr rfl rfl rfl rfl _).trans (hfail hs)

theorem receiveBytes_opStep (h : s.seq = .busy op k p) {n : Nat} {g : Bytes → Point}
    (hq : ∀ r : Bytes, r.length = n → InPlace op p s → legalAt op s (g r) = true)
    (hfail : InPlace op p s → legalAt op s (.ending .readError .linkRead) = true) : OpStep op p s (receiveBytes n g s) := by
  have hs : Within op p s s := .refl h
  obtain ⟨-, heq⟩ | ⟨-, hn, heq⟩ | ⟨-, -, heq⟩ := receiveBytes_cases s n g <;> rw [heq]
  · exact raiseNext_opStep (hs.linkReadFailed n) fun hs => (legalAt_congr rfl rfl rfl rfl _).trans (hfail hs)
  · exact .goesOn (hs.linkReadDone n) fun hs =>
      (legalAt_congr rfl rfl rfl rfl _).trans (hq _ (List.length_take_of_le hn) hs)
  · exact .holds hs.drawn h fun hs => (legalAt_congr rfl rfl rfl rfl p).trans hs.place

end

end Sys2Proof.Machine
end

section
/-! Every meaning makes one `OpStep`: operation by operation, then the device bytes, READY and the packets, then the engine. -/

namespace Sys2Proof.Machine

/-! ## Operations without the link (40_edid_model.md, 42_fu_framer.md) -/

section
variable {k : Nat} {p : Point} {s t : State}

theorem edidChecksums_opStep (h : s.seq = .busy 0x01 k p) (nblk : Byte) : OpStep 0x01 p s (edidChecksums nblk s) := by
  have hs : Within 0x01 p s s := .refl h
  have heval : Within 0x01 p s (ckEval nblk.toNat s) := hs.ckEval (by decide) _
  unfold edidChecksums
  split
  · split
    · exact .ends heval fun _ => rfl
    · exact raise_opStep heval fun _ => rfl
  · exact raise_opStep hs fun _ => rfl

theorem edidIsvalid_opStep (h : s.seq = .busy 0x02 k p) : OpStep 0x02 p s (edidIsvalid s) := by
  have heval : Within 0x02 p s (validEval s) := (Within.refl h).validEval (by decide)
  unfold edidIsvalid
  split
  · exact .ends heval fun _ => rfl
  · next d hd => exact raise_opStep heval fun _ => (legalOutcome_of_validResult hd).1

theorem fwValidate_opStep (h : s.seq = .busy 0x03 k p) : OpStep 0x03 p s (fwValidate s) := by
  have hs : Within 0x03 p s s := .refl h
  unfold fwValidate
  split
  · exact .ends hs fun _ => rfl
  · next d hd => exact raise_opStep hs fun _ => legalOutcome_of_imageCheck hd

theorem fuEncode_opStep (h : s.seq = .busy 0x04 k p) (opcode : Byte) : OpStep 0x04 p s (fuEncode opcode s) := by
  have hs : Within 0x04 p s s := .refl h
  have hw : InPlace 0x04 p s → writesBuf 0x04 .frame := fun _ => List.mem_cons_self
  unfold fuEncode
  dsimp only
  split
  · exact raise_opStep hs fun _ => rfl
  · have hframe : Within 0x04 p s (encodeFrame opcode s.reg.fuLen.toNat s) :=
      (hs.setBytes (by decide) hw _ _).setBytes (by decide) hw _ _
    exact .ends (hframe.setFuLen (fun _ => by decide) _) fun _ => rfl

theorem fuDecode_opStep (h : s.seq = .busy 0x05 k p) (request : Byte) : OpStep 0x05 p s (fuDecode request s) := by
  have hs : Within 0x05 p s s := .refl h
  unfold fuDecode
  dsimp only
  split
  · exact raise_opStep hs fun _ => rfl
  · split
    · exact .ends hs fun _ => rfl
    · next hr => exact raise_opStep hs fun _ => legalOutcome_of_fuReplyCheck hr

theorem execEdidChecksums_opStep (h : s.seq = .busy 0x01 k p) {nblk : Byte} (ht : execEdidChecksums nblk s = .next t) :
    OpStep 0x01 p s t := by
  rw [execEdidChecksums, h] at ht
  cases p with
  | start => cases ht; exact edidChecksums_opStep h nblk
  | _ => cases ht

theorem execEdidIsvalid_opStep (h : s.seq = .busy 0x02 k p) (ht : execEdidIsvalid s = .next t) : OpStep 0x02 p s t := by
  rw [execEdidIsvalid, h] at ht
  cases p with
  | start => cases ht; exact edidIsvalid_opStep h
  | _ => cases ht

theorem execFwValidate_opStep (h : s.seq = .busy 0x03 k p) (ht : execFwValidate s = .next t) : OpStep 0x03 p s t := by
  rw [execFwValidate, h] at ht
  cases p with
  | start => cases ht; exact fwValidate_opStep h
  | _ => cases ht

theorem execFuEncode_opStep (h : s.seq = .busy 0x04 k p) {opcode : Byte} (ht : execFuEncode opcode s = .next t) :
    OpStep 0x04 p s t := by
  rw [execFuEncode, h] at ht
  cases p with
  | start => cases ht; exact fuEncode_opStep h opcode
  | _ => cases ht

theorem execFuDecode_opStep (h : s.seq = .busy 0x05 k p) {request : Byte} (ht : execFuDecode request s = .next t) :
    OpStep 0x05 p s t := by
  rw [execFuDecode, h] at ht
  cases p with
  | start => cases ht; exact fuDecode_opStep h request
  | _ => cases ht

/-! ## Device commands (41_device_commands.md) -/

theorem selectStart_opStep (h : s.seq = .busy 0x10 k p) : OpStep 0x10 p s (selectStart s.int.oparg s) := by
  have hs : Within 0x10 p s s := .refl h
  unfold selectStart
  split
  · exact raise_opStep hs fun _ => rfl
  · next hle =>
    split
    · exact .ends (hs.setSel fun _ => by decide) fun _ => rfl
    · next hne =>
      have hlt : s.int.oparg.toNat ≤ 3 := by
        have hne' : s.int.oparg.toNat ≠ 4 := fun heq => hne (BitVec.eq_of_toNat_eq heq)
        omega
      exact ifAttached_opStep hs fun _ => by simp [legalAt, hlt]

theorem selectEnd_opStep (h : s.seq = .busy 0x10 k .setSel) : OpStep 0x10 .setSel s (selectEnd s.int.oparg s) := by
  refine .ends ((Within.refl h).setSel fun hs => ?_) fun _ => rfl
  have hle : s.int.oparg.toNat ≤ 3 := by simpa [legalAt] using hs.place
  rw [BitVec.toNat_setWidth]
  omega

theorem execSelect_opStep (h : s.seq = .busy 0x10 k p) (ht : execSelect s.int.oparg s = .next t) : OpStep 0x10 p s t := by
  rw [execSelect, h] at ht
  cases p with
  | start => cases ht; exact selectStart_opStep h
  | settle => cases ht; exact sleepThen_opStep h fun hs => by simpa [legalAt] using hs.place
  | setSel => cases ht; exact selectEnd_opStep h
  | ending r d => cases ht; exact ending_opStep h
  | _ => cases ht

theorem cecStep_opStep {op : Byte} (hop : op = 0x11 ∨ op = 0x12) (h : s.seq = .busy op k p) (ht : cecStep s = .next t) :
    OpStep op p s t := by
  have hplace : legalAt op s .send = true ∧ legalAt op s (.ending .ok .none) = true := by
    obtain rfl | rfl := hop <;> simp [legalAt, legalOutcome]
  obtain ⟨hsend, hending⟩ := hplace
  rw [cecStep, h] at ht
  cases p with
  | start => cases ht; exact ifAttached_opStep (.refl h) fun _ => hsend
  | settle => cases ht; exact sleepThen_opStep h fun _ => hending
  | ending r d => cases ht; exact ending_opStep h
  | _ => cases ht

theorem identifyRead_opStep (h : s.seq = .busy 0x13 k p) : OpStep 0x13 p s (identifyRead s) := by
  have hread : Within 0x13 p s (linkReadByte s) := (Within.refl h).linkReadByte
  unfold identifyRead
  split
  · exact raiseNext_opStep hread fun _ => by simp [legalAt, legalOutcome]
  · exact .goesOn hread fun _ => rfl

theorem execIdentify_opStep (h : s.seq = .busy 0x13 k p) (ht : execIdentify s = .next t) : OpStep 0x13 p s t := by
  rw [execIdentify, h] at ht
  cases p with
  | start => cases ht; exact ifAttached_opStep (.refl h) fun _ => by simp [legalAt]
  | settle => cases ht; exact sleepThen_opStep h fun _ => rfl
  | receive => cases ht; exact identifyRead_opStep h
  | storeId b => cases ht; exact .ends ((Within.refl h).setIdbyte b) fun _ => rfl
  | ending r d => cases ht; exact ending_opStep h
  | _ => cases ht

theorem legalAt_afterBlock (u : State) (ext : Bool) : legalAt 0x14 u (afterBlock ext u) = true := by
  unfold afterBlock; split <;> rfl

theorem storeBlock_opStep (h : s.seq = .busy 0x14 k p) (ext : Bool) (r : Bytes) : OpStep 0x14 p s (storeBlock ext r s) :=
  .goesOn ((Within.refl h).setBytes (b := .edid) (by decide) (fun _ => rfl) _ r) fun _ => legalAt_afterBlock _ ext

theorem readEdidEnd_opStep (h : s.seq = .busy 0x14 k p) : OpStep 0x14 p s (readEdidEnd s) := by
  have heval : Within 0x14 p s (validEval s) := (Within.refl h).validEval (by decide)
  unfold readEdidEnd
  split
  · exact .ends heval fun _ => rfl
  · next d hd => exact .ends heval fun _ => (legalOutcome_of_validResult hd).2

theorem execReadEdid_opStep (h : s.seq = .busy 0x14 k p) (ht : execReadEdid s = .next t) : OpStep 0x14 p s t := by
  rw [execReadEdid, h] at ht
  cases p with
  | start => cases ht; exact ifAttached_opStep (.refl h) fun _ => by simp [legalAt]
  | pollSleep failed aft => cases ht; exact sleepThen_opStep h fun hs => hs.place
  | readBlock ext =>
    cases ht
    exact receiveBytes_opStep h (fun r hr _ => by simp [legalAt, hr]) fun _ => by simp [legalAt, legalOutcome]
  | storeBlock ext r => cases ht; exact storeBlock_opStep h ext r
  | nextSettle => cases ht; exact sleepThen_opStep h fun _ => rfl
  | check => cases ht; exact readEdidEnd_opStep h
  | ending r d => cases ht; exact ending_opStep h
  | _ => cases ht

theorem writeEdidValidate_opStep (h : s.seq = .busy 0x15 k p) : OpStep 0x15 p s (writeEdidValidate s) := by
  have heval : Within 0x15 p s (validEval s) := (Within.refl h).validEval (by decide)
  unfold writeEdidValidate
  split
  · exact .goesOn heval fun _ => by simp [legalAt]
  · next d hd => exact raise_opStep heval fun _ => (legalOutcome_of_validResult hd).1

theorem execWriteEdid_opStep (h : s.seq = .busy 0x15 k p) (ht : execWriteEdid s = .next t) : OpStep 0x15 p s t := by
  rw [execWriteEdid, h] at ht
  cases p with
  | start => cases ht; exact ifAttached_opStep (.refl h) fun _ => rfl
  | validate => cases ht; exact writeEdidValidate_opStep h
  | pollSleep failed aft => cases ht; exact sleepThen_opStep h fun hs => hs.place
  | writeBlock ext =>
    cases ht
    exact transmit_opStep h (fun _ => by cases ext <;> rfl) fun _ => by simp [legalAt, legalOutcome]
  | ending r d => cases ht; exact ending_opStep h
  | _ => cases ht

/-! ## FW_UPDATE's own steps (43_fw_update.md) -/

theorem updateStart_opStep (h : s.seq = .busy 0x20 k p) : OpStep 0x20 p s (updateStart s) :=
  ifAttached_opStep ((Within.refl h).setUpdate (fun _ => by decide) (fun _ => by decide) _ _ _ _ _) fun _ => rfl

/-- FW_UPDATE changes its phase code and its internal registers, and no chunk index. -/
theorem Within.setPhase (h : Within 0x20 p s s) {phase : BitVec 4} (hphase : phase.toNat ≤ 10) (savedBaud : BitVec 32)
    (savedRts entered : Bool) :
    Within 0x20 p s
      { s with reg.fwPhase := phase, int.savedBaud := savedBaud, int.savedRts := savedRts, int.entered := entered } :=
  h.setUpdate (fun _ => hphase) (fun hs => hs.range.chunk) _ _ _ _ _

theorem updateValidate_opStep (h : s.seq = .busy 0x20 k .validate) : OpStep 0x20 .validate s (updateValidate s) := by
  have hphase := (Within.refl h).setPhase (phase := 1) (by decide) s.int.savedBaud s.int.savedRts s.int.entered
  unfold updateValidate
  dsimp only
  split
  · exact .goesOn hphase fun hs => by simpa [legalAt] using hs.place
  · next d hd => exact raise_opStep hphase fun _ => legalOutcome_of_imageCheck hd

theorem updateEnter_opStep (h : s.seq = .busy 0x20 k p) : OpStep 0x20 p s (updateEnter s) :=
  .goesOn ((Within.refl h).setPhase (by decide) _ _ _) fun _ => rfl

theorem updatePhase_opStep {st : Stage} (h : s.seq = .busy 0x20 k (.phase st)) :
    OpStep 0x20 (.phase st) s (updatePhase st s) := by
  refine .goesOn ((Within.refl h).setUpdate (fun _ => phaseCode_le st) (fun hs => ?chunk) _ _ _ _ _) fun hs => ?place
  case chunk =>
    split
    · decide
    · exact hs.range.chunk
  case place =>
    have hplace := hs.place
    simp only [legalAt, inUpdate, Bool.and_eq_true] at hplace ⊢
    exact ⟨hplace.1.1, beq_self_eq_true _⟩

theorem updateNextChunk_opStep (h : s.seq = .busy 0x20 k .nextChunk) : OpStep 0x20 .nextChunk s (updateNextChunk s) := by
  have hplace (hs : InPlace 0x20 .nextChunk s) :
      (inUpdate 0x20 s = true ∧ s.reg.fwPhase = 7) ∧ s.reg.chunk.toNat + 1 < Config.fwNChunks := by
    simpa [legalAt] using hs.place
  refine .goesOn ((Within.refl h).setUpdate (fun hs => hs.range.phase) (fun hs => ?chunk) _ _ _ _ _) fun hs => ?place
  case chunk =>
    obtain ⟨-, hlt⟩ := hplace hs
    have hsum : (s.reg.chunk + 1).toNat = s.reg.chunk.toNat + 1 := by
      rw [BitVec.toNat_add]; exact Nat.mod_eq_of_lt (hlt.trans (by decide))
    rwa [hsum]
  case place =>
    obtain ⟨⟨hin, hphase⟩, -⟩ := hplace hs
    simpa [legalAt, inUpdate, hphase, Stage.phaseCode] using hin

theorem updateAllPassed_opStep (h : s.seq = .busy 0x20 k .allPassed) : OpStep 0x20 .allPassed s (updateAllPassed s) := by
  refine .goesOn ((Within.refl h).setPhase (by decide) _ _ _) fun hs => ?_
  have hplace := hs.place
  simp only [legalAt, inUpdate, Bool.and_eq_true] at hplace ⊢
  exact ⟨hplace.1, rfl⟩

theorem linkWaitPending_opStep {st : Stage} (h : s.seq = .busy 0x20 k (.pending st)) :
    OpStep 0x20 (.pending st) s (linkWaitPending (·.goto (.reply st)) s) := by
  obtain ⟨-, heq⟩ | ⟨-, heq⟩ := linkWaitPending_cases s (·.goto (.reply st)) <;> rw [heq]
  · exact .goesOn ((Within.refl h).record _) fun hs => hs.place
  · exact .holds (.refl h) h fun hs => hs.place

theorem linkSetBaud_opStep (h : s.seq = .busy 0x20 k p) (r : BitVec 32) {q : Point}
    (hq : InPlace 0x20 p s → legalAt 0x20 s q = true) : OpStep 0x20 p s ((linkSetBaud r s).goto q) := by
  have hregs : (linkSetBaud r s).reg.fwPhase = s.reg.fwPhase ∧ (linkSetBaud r s).reg.chunk = s.reg.chunk := by
    obtain ⟨-, heq⟩ | ⟨-, heq⟩ := linkSetBaud_cases s r <;> rw [heq] <;> exact ⟨rfl, rfl⟩
  obtain ⟨hphase, hchunk⟩ := hregs
  exact .goesOn ((Within.refl h).linkSetBaud r) fun hs =>
    (legalAt_congr hphase hchunk (linkSetBaud_int s r) (linkSetBaud_params s r) q).trans (hq hs)

theorem execFwUpdate_opStep (h : s.seq = .busy 0x20 k p) (ht : execFwUpdate s = .next t) : OpStep 0x20 p s t := by
  have hs : Within 0x20 p s s := .refl h
  rw [execFwUpdate, h] at ht
  cases p with
  | start => cases ht; exact updateStart_opStep h
  | validate => cases ht; exact updateValidate_opStep h
  | enter => cases ht; exact updateEnter_opStep h
  | enterBaud => cases ht; exact linkSetBaud_opStep h _ fun hs => hs.place
  | enterRts => cases ht; exact .goesOn (hs.linkSetRts _) fun hs => hs.place
  | enterSleep => cases ht; exact sleepThen_opStep h fun hs => hs.place
  | enterClear => cases ht; exact .goesOn hs.linkClear fun hs => hs.place
  | enSleep => cases ht; exact sleepThen_opStep h fun hs => hs.place
  | pending st => cases ht; exact linkWaitPending_opStep h
  | phase st => cases ht; exact updatePhase_opStep h
  | nextChunk => cases ht; exact updateNextChunk_opStep h
  | allPassed => cases ht; exact updateAllPassed_opStep h
  | tearBaud r d => cases ht; exact linkSetBaud_opStep h _ fun hs => hs.place
  | tearRts r d => cases ht; exact .goesOn (hs.linkSetRts _) fun hs => hs.place
  | tearSleep r d => cases ht; exact sleepThen_opStep h fun hs => hs.place
  | tearClear r d =>
    cases ht
    refine .goesOn hs.linkClear fun hs => ?_
    obtain ⟨hin, ho⟩ := Bool.and_eq_true_iff.1 hs.place
    exact (legalAt_congr rfl rfl rfl rfl _).trans (legalAt_ending_of_update hin ho)
  | ending r d => cases ht; exact ending_opStep h
  | _ => cases ht

/-! ## Device bytes and READY (30_encoding.md R95, R96) -/

variable {op : Byte}

theorem sendDeviceByte_opStep (h : s.seq = .busy op k p) {b : Byte} (ht : sendDeviceByte b s = .next t) :
    OpStep op p s t := by
  obtain ⟨op', k', h', rfl⟩ | ⟨op', k', h', rfl⟩ := sendDeviceByte_next s ht <;> cases h'.symm.trans h
  · exact transmit_opStep h (fun hs => legalAt_afterSend hs.place) fun hs => legalAt_ending_of_send hs.place rfl
  · exact transmit_opStep h (fun hs => hs.place) fun hs => legalAt_ending_of_edid (.inl (eq_of_beq hs.place)) rfl

theorem pollAttempt_opStep {failed : Nat} {aft : AfterPoll} (h : s.seq = .busy op k (.pollRead failed aft)) :
    OpStep op (.pollRead failed aft) s (pollAttempt failed aft s) := by
  have hread : Within op (.pollRead failed aft) s (linkReadByte s) := (Within.refl h).linkReadByte
  have hop (hs : InPlace op (.pollRead failed aft) s) : op = if aft = .readBlock0 then opReadEdid else opWriteEdid :=
    eq_of_beq (Bool.and_eq_true_iff.1 hs.place).2
  obtain ⟨-, heq⟩ | ⟨-, hlt, heq⟩ | ⟨-, -, heq⟩ := pollAttempt_cases s failed aft <;> rw [heq]
  · exact .goesOn hread fun hs => legalAt_afterReady (hop hs)
  · exact .goesOn hread fun hs =>
      Bool.and_eq_true_iff.2 ⟨decide_eq_true hlt, (Bool.and_eq_true_iff.1 hs.place).2⟩
  · refine raiseNext_opStep hread fun hs => legalAt_ending_of_edid ?_ rfl
    by_cases haft : aft = .readBlock0
    · exact .inl ((hop hs).trans (if_pos haft))
    · exact .inr ((hop hs).trans (if_neg haft))

theorem execDevReady_opStep (h : s.seq = .busy op k p) (ht : execDevReady s = .next t) : OpStep op p s t := by
  rw [execDevReady, h] at ht
  cases p with
  | pollRead failed aft => cases ht; exact pollAttempt_opStep h
  | _ => cases ht

/-! ## Firmware packets (30_encoding.md R97 to R99) -/

/-- Only FW_UPDATE enters update mode. -/
theorem op_of_inUpdate (h : inUpdate op s = true) : op = 0x20 := eq_of_beq (Bool.and_eq_true_iff.1 h).1

theorem legalAt_afterRequest {st : Stage} (h : legalAt op s (.request st) = true) :
    legalAt op s (afterRequest st) = true := by
  unfold afterRequest
  split
  · next hst => subst hst; exact h
  · exact h

theorem inUpdate_of_request {st : Stage} (h : legalAt op s (.request st) = true) : inUpdate op s = true :=
  (Bool.and_eq_true_iff.1 h).1

theorem buildRequest_opStep {st : Stage} (h : s.seq = .busy op k (.build st)) :
    OpStep op (.build st) s (buildRequest st s) := by
  have hop (hs : InPlace op (.build st) s) : op ∈ [0x04, 0x20] := by
    rw [op_of_inUpdate (inUpdate_of_request hs.place)]; decide
  have hframe : Within op (.build st) s (s.setBytes .frame 0 (requestFrame s st)) :=
    (Within.refl h).setBytes (b := .frame) (by decide) hop _ _
  exact .goesOn (hframe.setFuLen hop _) fun hs => hs.place

theorem sendRequest_opStep {st : Stage} (h : s.seq = .busy op k (.request st)) :
    OpStep op (.request st) s (sendRequest st s) :=
  transmit_opStep h (fun hs => legalAt_afterRequest hs.place)
    fun hs => legalAt_ending_of_update (inUpdate_of_request hs.place) rfl

theorem requestStep_opStep (h : s.seq = .busy op k p) {st : Stage} (ht : requestStep st s = .next t) : OpStep op p s t := by
  obtain ⟨op', k', h', -, rfl⟩ | ⟨op', k', h', -, rfl⟩ := requestStep_next s ht <;> cases h'.symm.trans h
  · exact buildRequest_opStep h
  · exact sendRequest_opStep h

theorem acceptReply_opStep {u : State} {st : Stage} {r : Bytes} (hu : Within op p s u)
    (hplace : InPlace op p s → inUpdate op u = true ∧ u.reg.fwPhase = st.phaseCode) :
    OpStep op p s (acceptReply st r u) := by
  have hstore : Within op p s (if st = .di then u.setBytes .info 0 r else u) := by
    split
    · exact hu.setBytes (b := .info) (by decide) (fun hs => op_of_inUpdate (hplace hs).1) _ _
    · exact hu
  unfold acceptReply
  dsimp only
  split
  · next d hd => exact raise_opStep hstore fun _ => legalOutcome_of_phaseCheck hd
  · refine .goesOn hstore fun hs => ?_
    obtain ⟨hin, hphase⟩ := hplace hs
    have hsame : legalAt op (if st = .di then u.setBytes .info 0 r else u) (afterPhase u st) =
        legalAt op u (afterPhase u st) := by split <;> exact legalAt_congr rfl rfl rfl rfl _
    exact hsame.trans (legalAt_afterPhase hin hphase)

theorem checkReply_opStep {st : Stage} {r : Bytes} (h : s.seq = .busy op k (.gotReply st r)) :
    OpStep op (.gotReply st r) s (checkReply st r s) := by
  have hplace (hs : InPlace op (.gotReply st r) s) : inUpdate op s = true ∧ s.reg.fwPhase = st.phaseCode := by
    have h' := (Bool.and_eq_true_iff.1 hs.place).1
    exact (Bool.and_eq_true_iff.1 h').imp id eq_of_beq
  have hstore : Within op (.gotReply st r) s (s.setBytes .rx 0 r) :=
    (Within.refl h).setBytes (b := .rx) (by decide) (fun hs => op_of_inUpdate (hplace hs).1) _ _
  unfold checkReply
  dsimp only
  split
  · next e d hr => exact raise_opStep hstore fun _ => legalOutcome_of_fuReplyCheck hr
  · exact acceptReply_opStep hstore hplace

theorem replyStep_opStep (h : s.seq = .busy op k p) {st : Stage} (ht : replyStep st s = .next t) : OpStep op p s t := by
  obtain ⟨op', k', h', -, rfl⟩ | ⟨op', k', r, h', -, rfl⟩ := replyStep_next s ht <;> cases h'.symm.trans h
  · refine receiveBytes_opStep h (fun r hr hs => ?_) fun hs => legalAt_ending_of_update (inUpdate_of_request hs.place) rfl
    exact Bool.and_eq_true_iff.2 ⟨hs.place, decide_eq_true hr⟩
  · exact checkReply_opStep h

/-! ## The engine -/

/-- An operation's own row makes a step of that operation. -/
theorem exec_host_opStep (h : s.seq = .busy op k p) {i : Instr} (hd : decodeHost op s.int.oparg = .ok i)
    (ht : exec i s = .next t) : OpStep op p s t := by
  unfold decodeHost at hd
  obtain ⟨rfl, hi⟩ | ⟨-, hd⟩ := ite_eq_iff.1 hd
  · cases hi; exact execEdidChecksums_opStep h ht
  obtain ⟨rfl, hi⟩ | ⟨-, hd⟩ := ite_eq_iff.1 hd
  · cases hi; exact execEdidIsvalid_opStep h ht
  obtain ⟨rfl, hi⟩ | ⟨-, hd⟩ := ite_eq_iff.1 hd
  · cases hi; exact execFwValidate_opStep h ht
  obtain ⟨rfl, hi⟩ | ⟨-, hd⟩ := ite_eq_iff.1 hd
  · cases hi; exact execFuEncode_opStep h ht
  obtain ⟨rfl, hi⟩ | ⟨-, hd⟩ := ite_eq_iff.1 hd
  · cases hi; exact execFuDecode_opStep h ht
  obtain ⟨rfl, hi⟩ | ⟨-, hd⟩ := ite_eq_iff.1 hd
  · cases hi; exact execSelect_opStep h ht
  obtain ⟨rfl, hi⟩ | ⟨-, hd⟩ := ite_eq_iff.1 hd
  · cases hi; exact cecStep_opStep (.inl rfl) h ht
  obtain ⟨rfl, hi⟩ | ⟨-, hd⟩ := ite_eq_iff.1 hd
  · cases hi; exact cecStep_opStep (.inr rfl) h ht
  obtain ⟨rfl, hi⟩ | ⟨-, hd⟩ := ite_eq_iff.1 hd
  · cases hi; exact execIdentify_opStep h ht
  obtain ⟨rfl, hi⟩ | ⟨-, hd⟩ := ite_eq_iff.1 hd
  · cases hi; exact execReadEdid_opStep h ht
  obtain ⟨rfl, hi⟩ | ⟨-, hd⟩ := ite_eq_iff.1 hd
  · cases hi; exact execWriteEdid_opStep h ht
  obtain ⟨rfl, hi⟩ | ⟨-, hd⟩ := ite_eq_iff.1 hd
  · cases hi; exact execFwUpdate_opStep h ht
  cases hd

/-- Whatever is fetched and decoded while an operation is in progress makes a step of that operation. -/
theorem exec_opStep (h : s.seq = .busy op k p) {sp : Space} {bs : Bytes} {i : Instr} (hf : fetch s = some (sp, bs))
    (hd : decode sp bs = .ok i) (ht : exec i s = .next t) : OpStep op p s t := by
  by_cases hp : p.isOwn = true
  · cases (fetch_own h hp).symm.trans hf
    exact exec_host_opStep h hd ht
  · cases p with
    | send =>
      cases (fetch_send h).symm.trans hf
      rw [exec_of_decodeDevice hd] at ht
      exact sendDeviceByte_opStep h ht
    | sendNext =>
      cases (fetch_sendNext h).symm.trans hf
      rw [exec_of_decodeDevice hd] at ht
      exact sendDeviceByte_opStep h ht
    | pollRead failed aft =>
      cases (fetch_pollRead h).symm.trans hf
      rw [exec_of_decodeInbound hd] at ht
      exact execDevReady_opStep h ht
    | build st | request st =>
      cases (fetch_request (st := st) h (by simp)).symm.trans hf
      cases (decode_reqOp st).symm.trans hd
      rw [exec_requestInstr] at ht
      exact requestStep_opStep h ht
    | reply st | gotReply st r =>
      cases (fetch_reply (st := st) h (by simp)).symm.trans hf
      cases (decode_repOp st).symm.trans hd
      rw [exec_replyInstr] at ht
      exact replyStep_opStep h ht
    | _ => exact absurd rfl hp

/-- A code word that no instruction has ends a reserved code's operation, or stops the machine. -/
theorem undecoded_opStep (h : s.seq = .busy op k p) {e : DecodeError} (ht : undecoded e s = .next t) : OpStep op p s t := by
  cases e with
  | reservedCommand c => cases ht; exact raise_opStep (.refl h) fun _ => rfl
  | _ => cases ht

/-- The engine's step waits in IDLE, else it makes a step of the operation in progress. -/
theorem engineStep_next (ht : engineStep s = .next t) :
    (s.seq = .idle ∧ t = s) ∨ ∃ op k p, s.seq = .busy op k p ∧ OpStep op p s t := by
  cases h : s.seq with
  | idle =>
    rw [engineStep_of_fetch_none (fetch_of_idle h)] at ht
    cases ht
    exact .inl ⟨rfl, rfl⟩
  | busy op k p =>
    refine .inr ⟨op, k, p, rfl, ?_⟩
    obtain ⟨hnone, heq⟩ | ⟨sp, bs, i, hf, hd, heq⟩ | ⟨sp, bs, e, -, -, heq⟩ := engineStep_cases s <;> rw [heq] at ht
    · exact absurd hnone (fetch_ne_none h)
    · exact exec_opStep h hf hd ht
    · exact undecoded_opStep h ht

end

end Sys2Proof.Machine
end

section
/-! Every step of every agent: the moves beside the engine's, said once, and with them and `OpStep` the invariant, the writers
table, the overrun flag, and BUSY with DONE. -/

namespace Sys2Proof.Machine

/-! ## The other agents' moves (log 3) -/

/-- A move that leaves the operation in progress alone: of the registers it may change the operands and OVR. -/
structure Quiet (s t : State) : Prop where
  seq : t.seq = s.seq
  int : t.int = s.int
  params : t.params = s.params
  reg : t.reg = { s.reg with arg := t.reg.arg, ovr := t.reg.ovr, fuLen := t.reg.fuLen, fwLen := t.reg.fwLen }
  buffers : s.buf.wf → t.buf.wf

/-- What move `e` makes of a state: the engine steps, a command is accepted, OVR is cleared, reset is applied, or the move is
quiet and clears no OVR. -/
inductive Moved (e : Event) (s : State) : State → Prop where
  | engine {t : State} (he : e = .engine) (ht : engineStep s = .next t) : Moved e s t
  | accepted {c : Byte} (he : e.resolve s.params.platformMap = .write 0x00 c) (hb : s.reg.busy = false) :
      Moved e s (accept c s)
  | clearsOvr {v : Byte} (he : e.resolve s.params.platformMap = .write 0x02 v) (hv : v.getLsbD 2 = true) :
      Moved e s { s with reg.ovr := false }
  | reset {n : Nat} (he : e = .reset n) : Moved e s (applyReset n s)
  | quiet {t : State} (hq : Quiet s t) (hovr : s.reg.ovr = true → t.reg.ovr = true) : Moved e s t

section
variable {e : Event} {s t : State}

theorem Quiet.refl (s : State) : Quiet s s := ⟨rfl, rfl, rfl, rfl, id⟩

/-- A read, the device's bytes and the platform's inputs reach the model's own fields and the link only. -/
theorem Quiet.outside (s : State) (l : Link) (v : Env) : Quiet s { s with link := l, env := v } := ⟨rfl, rfl, rfl, rfl, id⟩

theorem Quiet.setOvr (s : State) (x : Bool) : Quiet s { s with reg.ovr := x } := ⟨rfl, rfl, rfl, rfl, id⟩

theorem Moved.reads {v : Env} : Moved e s { s with env := v } := .quiet (.outside s s.link v) id

theorem hostWrite_moved {off v : Byte} (he : e.resolve s.params.platformMap = .write off v) :
    Moved e s (hostWrite off v s) := by
  by_cases hoff : off = 0x02
  · subst hoff
    rw [hostWrite_status]
    split
    · next hv => exact .clearsOvr he hv
    · exact .quiet (.refl s) id
  · cases hb : s.reg.busy with
    | true => rw [hostWrite_of_busy hb hoff]; exact .quiet (.setOvr s true) fun _ => rfl
    | false =>
      rw [hostWrite_of_not_busy hb hoff]
      obtain ⟨rfl, h⟩ | ⟨-, h⟩ | ⟨-, h⟩ | ⟨-, h⟩ | ⟨-, h⟩ | ⟨-, h⟩ | h := writeFree_cases off v s <;> rw [h]
      · exact .accepted he hb
      all_goals exact .quiet ⟨rfl, rfl, rfl, rfl, id⟩ id

theorem hostRead_moved (off : Byte) : Moved e s (hostRead off s) := by
  obtain ⟨v, n, h⟩ := hostRead_gives_one_byte s off
  rw [h]; exact .reads

theorem hostBufRead_moved (b : Buf) (a : Nat) : Moved e s (hostBufRead b a s) := by
  obtain ⟨v, h⟩ | h := hostBufRead_cases s b a <;> rw [h] <;> exact .reads

theorem hostBufWrite_moved (b : Buf) (a : Nat) (v : Byte) : Moved e s (hostBufWrite b a v s) := by
  unfold hostBufWrite
  split
  · exact .quiet (.setOvr s true) fun _ => rfl
  · split
    · exact .quiet ⟨rfl, rfl, rfl, rfl, fun h => setByte_wf h b a v⟩ id
    · exact .quiet (.refl s) id

theorem hostWaitDone_moved : Moved e s (hostWaitDone s) := by
  obtain ⟨v, n, h⟩ := hostRead_gives_one_byte s 0x02
  unfold hostWaitDone
  rw [h]
  dsimp only
  split <;> exact .reads

/-- Only an access by platform address stands for another move. -/
theorem eq_of_resolve {m : PlatformMap} {e' : Event} (h : e.resolve m = e') (hne : e ≠ e') :
    (∃ off v, e' = .write off v) ∨ (∃ b a v, e' = .bufWrite b a v) ∨ (∃ off, e' = .read off) ∨ ∃ b a, e' = .bufRead b a := by
  subst h
  obtain h | ⟨_, _, _, -, -, h⟩ | ⟨_, _, _, _, -, -, h⟩ | ⟨_, _, -, -, h⟩ | ⟨_, _, _, -, -, h⟩ := resolve_cases m e
  · exact absurd h.symm hne
  · exact .inl ⟨_, _, h⟩
  · exact .inr (.inl ⟨_, _, _, h⟩)
  · exact .inr (.inr (.inl ⟨_, h⟩))
  · exact .inr (.inr (.inr ⟨_, _, h⟩))

theorem move_moved (h : move e s = .next t) : Moved e s t := by
  unfold move at h
  split at h
  · next he => exact .engine (by by_contra hne; simpa using eq_of_resolve he hne) h
  · next off v he => cases h; exact hostWrite_moved he
  · next off he => cases h; exact hostRead_moved off
  · next b a v he => cases h; exact hostBufWrite_moved b a v
  · next b a he => cases h; exact hostBufRead_moved b a
  · cases h; exact .quiet (.refl s) id
  · cases h; exact .quiet (.refl s) id
  · cases h; exact hostWaitDone_moved
  · cases h; exact .quiet (.outside s _ s.env) id
  · cases h; exact .quiet (.outside s _ s.env) id
  · cases h; exact .quiet (.outside s _ s.env) id
  · next n he => cases h; exact .reset (by by_contra hne; simpa using eq_of_resolve he hne)

/-- A step of the machine is the engine's on an empty agenda, or the first move listed. -/
theorem step_next (h : step s = .next t) :
    (s.env.agenda = [] ∧ engineStep s = .next t) ∨
      ∃ e rest, s.env.agenda = e :: rest ∧ Moved e { s with env.agenda := rest } t := by
  obtain ⟨ha, heq⟩ | ⟨e, rest, ha, heq⟩ := step_cases s <;> rw [heq] at h
  · exact .inl ⟨ha, h⟩
  · exact .inr ⟨e, rest, ha, move_moved h⟩

end

/-! ## The invariant -/

theorem resultByte_ne_none (r : ResultCode) : resultByte r ≠ 0xFF := by cases r <;> decide

section
variable {s t : State} {op : Byte} {k : Nat} {p : Point}

theorem State.Inv.inPlace (hs : s.Inv) (h : s.seq = .busy op k p) : InPlace op p s :=
  ⟨⟨hs.buffers, hs.sel, hs.phase, hs.chunk⟩, hs.place op k p h⟩

theorem State.Inv.busy_of_seq (hs : s.Inv) (h : s.seq = .busy op k p) : s.reg.busy = true ∧ s.reg.done = false := by
  have hb : s.reg.busy = true := hs.busy.2 (by rw [h]; exact Seq.noConfusion)
  exact ⟨hb, Bool.eq_false_iff.2 fun hd => hs.notBoth ⟨hb, hd⟩⟩

/-- A step of the operation in progress goes on at a place of it, or ends with an outcome that occurs. -/
theorem OpStep.inv (ht : OpStep op p s t) (hs : s.Inv) (h : s.seq = .busy op k p) : t.Inv := by
  have hin : InPlace op p s := hs.inPlace h
  obtain ⟨hbusy, hdone⟩ := hs.busy_of_seq h
  cases ht with
  | @goesOn u q hu hq =>
    have hrange : InRange u := (hu.allowed hin).range
    obtain ⟨k', q', hseq'⟩ := hu.kept.seq
    have hseq : (u.goto q).seq = .busy op k' q := by rw [goto_seq, hseq', seqGoto_busy]
    have hcmd : u.reg.cmd = op := hu.kept.cmd.trans (hs.cmd op k p h)
    exact
      { params := by rw [goto_params, hu.kept.params]; exact hs.params
        buffers := hrange.buffers
        sel := hrange.sel
        phase := hrange.phase
        chunk := hrange.chunk
        outcome := by rw [goto_reg, hu.kept.result, hu.kept.detail]; exact hs.outcome
        busy := by rw [hseq, goto_reg, hu.kept.busy]; simp [hbusy]
        notBoth := by simp [hu.kept.done, hdone]
        done := fun hidle => by rw [hseq] at hidle; cases hidle
        cmd := fun op' _ _ h' => by cases hseq.symm.trans h'; exact hcmd
        place := fun op' _ _ h' => by
          cases hseq.symm.trans h'; exact (legalAt_congr rfl rfl rfl rfl q).trans (hq hin) }
  | @ends u r d hu ho =>
    have hrange : InRange u := (hu.allowed hin).range
    exact
      { params := by rw [finish_params, hu.kept.params]; exact hs.params
        buffers := hrange.buffers
        sel := hrange.sel
        phase := hrange.phase
        chunk := hrange.chunk
        outcome := .inr ⟨r, d, ho hin, rfl, rfl⟩
        busy := by simp
        notBoth := by simp
        done := fun _ => ⟨fun _ => resultByte_ne_none r, fun _ => rfl⟩
        cmd := fun _ _ _ h' => by cases h'
        place := fun _ _ _ h' => by cases h' }

theorem engineStep_inv (hs : s.Inv) (ht : engineStep s = .next t) : t.Inv := by
  obtain ⟨-, rfl⟩ | ⟨op, k, p, h, hstep⟩ := engineStep_next ht
  · exact hs
  · exact hstep.inv hs h

theorem Quiet.inv (h : Quiet s t) (hs : s.Inv) : t.Inv where
  params := h.params ▸ hs.params
  buffers := h.buffers hs.buffers
  sel := by rw [h.reg]; exact hs.sel
  phase := by rw [h.reg]; exact hs.phase
  chunk := by rw [h.reg]; exact hs.chunk
  outcome := by rw [h.reg]; exact hs.outcome
  busy := by rw [h.reg, h.seq]; exact hs.busy
  notBoth := by rw [h.reg]; exact hs.notBoth
  done := by rw [h.reg, h.seq]; exact hs.done
  cmd := by rw [h.reg, h.seq]; exact hs.cmd
  place := fun op k p hp =>
    (legalAt_congr (by rw [h.reg]) (by rw [h.reg]) h.int h.params p).trans
      (hs.place op k p (h.seq ▸ hp))

/-- An accepted command stands at its start (10_state.md R25). -/
theorem accept_inv (hs : s.Inv) (c : Byte) : (accept c s).Inv where
  params := hs.params
  buffers := hs.buffers
  sel := hs.sel
  phase := hs.phase
  chunk := hs.chunk
  outcome := hs.outcome
  busy := by simp
  notBoth := by simp
  done := fun h => by cases h
  cmd := fun _ _ _ h => by cases h; rfl
  place := fun _ _ _ h => by cases h; rfl

theorem applyReset_inv (hs : s.Inv) (n : Nat) : (applyReset n s).Inv where
  params := hs.params
  buffers := atReset_wf _
  sel := Nat.zero_le _
  phase := Nat.zero_le _
  chunk := Nat.zero_lt_succ _
  outcome := .inl ⟨rfl, rfl⟩
  busy := by simp [applyReset, Regs.atReset]
  notBoth := by simp [applyReset, Regs.atReset]
  done := fun _ => by simp [applyReset, Regs.atReset]
  cmd := fun _ _ _ h => by cases h
  place := fun _ _ _ h => by cases h

theorem Moved.inv {e : Event} (h : Moved e s t) (hs : s.Inv) : t.Inv := by
  cases h with
  | engine he ht => exact engineStep_inv hs ht
  | accepted he hb => exact accept_inv hs _
  | clearsOvr he hv => exact (Quiet.setOvr s false).inv hs
  | reset he => exact applyReset_inv hs _
  | quiet hq hovr => exact hq.inv hs

end

/-- Settles O56: every move keeps the invariant, and taking it off the agenda does too. -/
theorem everyStepKeepsTheInvariant : Obligations.EveryStepKeepsTheInvariant := by
  intro s t hs h
  obtain ⟨-, ht⟩ | ⟨e, rest, -, hmove⟩ := step_next h
  · exact engineStep_inv hs ht
  · exact hmove.inv ((Quiet.outside s s.link _).inv hs)

/-! ## The writers table (10_state.md R50) -/

section
variable {s t : State} {op : Byte} {p : Point}

/-- Going on changes SEQ alone, and ending changes RESULT, DETAIL and STATUS: both stay within the table. -/
theorem OpStep.allowed (ht : OpStep op p s t) (hs : InPlace op p s) : Allowed op s t := by
  cases ht with
  | goesOn hu hq => exact { hu.allowed hs with range := { (hu.allowed hs).range with } }
  | ends hu ho => exact { hu.allowed hs with range := { (hu.allowed hs).range with } }

/-- What no operation writes, and what only an ending step does (10_state.md R29, R32, R33). -/
theorem OpStep.keeps (ht : OpStep op p s t) :
    t.reg.cmd = s.reg.cmd ∧ t.reg.arg = s.reg.arg ∧ t.reg.fwLen = s.reg.fwLen ∧ t.buf.fw = s.buf.fw ∧
      t.buf.epoch = s.buf.epoch ∧ t.params = s.params ∧ t.link.attached = s.link.attached ∧ t.reg.ovr = s.reg.ovr ∧
      t.int.oparg = s.int.oparg ∧
      (t.reg.busy = true → t.reg.result = s.reg.result ∧ t.reg.detail = s.reg.detail ∧ t.reg.done = s.reg.done) := by
  cases ht with
  | goesOn hu hq =>
    have hk := hu.kept
    exact ⟨hk.cmd, hk.arg, hk.fwLen, hk.fw, hk.epoch, hk.params, hk.attached, hk.ovr, hk.oparg,
      fun _ => ⟨hk.result, hk.detail, hk.done⟩⟩
  | ends hu ho =>
    have hk := hu.kept
    exact ⟨hk.cmd, hk.arg, hk.fwLen, hk.fw, hk.epoch, hk.params, hk.attached, hk.ovr, hk.oparg,
      fun hb => absurd hb Bool.false_ne_true⟩

end

/-- Settles O59: the decoded instruction makes a step of its operation, which keeps to the table. -/
theorem operationsWriteOnlyWhatTheTableSays : Obligations.OperationsWriteOnlyWhatTheTableSays := by
  intro i s t op k p hs h hfetch hexec
  obtain ⟨sp, bs, hf, hd⟩ := hfetch
  have hstep : OpStep op p s t := exec_opStep h hf hd hexec
  have ha : Allowed op s t := hstep.allowed (hs.inPlace h)
  obtain ⟨hcmd, harg, hfwLen, hfw, hepoch, hparams, hattached, hovr, hoparg, hresult⟩ := hstep.keeps
  refine ⟨hcmd, harg, hfwLen, hfw, hepoch, hparams, hattached, hovr, hoparg, hresult, ha.sel, ha.idbyte,
    fun h1 h2 h3 h4 => ha.checks ?_, ha.update, fun h1 h2 => ha.frame ?_, ha.edid⟩
  · simp only [List.mem_cons, h1, h2, h3, h4, List.not_mem_nil, or_self, not_false_eq_true]
  · simp only [List.mem_cons, h1, h2, List.not_mem_nil, or_self, not_false_eq_true]

/-! ## OVR, BUSY and DONE -/

section
variable {s t : State}

/-- An engine step leaves OVR alone, and leaves BUSY and DONE alone unless it is an ending step. -/
theorem engineStep_flags (ht : engineStep s = .next t) :
    t.reg.ovr = s.reg.ovr ∧
      ((t.reg.busy = s.reg.busy ∧ t.reg.done = s.reg.done) ∨
        (s.seq ≠ .idle ∧ t.seq = .idle ∧ t.reg.busy = false ∧ t.reg.done = true ∧ t.reg.result ≠ 0xFF)) := by
  obtain ⟨-, rfl⟩ | ⟨op, k, p, h, hstep⟩ := engineStep_next ht
  · exact ⟨rfl, .inl ⟨rfl, rfl⟩⟩
  · cases hstep with
    | goesOn hu hq => exact ⟨hu.kept.ovr, .inl ⟨hu.kept.busy, hu.kept.done⟩⟩
    | @ends u r d hu ho =>
      exact ⟨hu.kept.ovr, .inr ⟨by rw [h]; exact Seq.noConfusion, rfl, rfl, rfl, resultByte_ne_none r⟩⟩

end

/-- A step that leaves BUSY and DONE alone has no edge of either. -/
theorem edges_of_unchanged {b b' d d' : Bool} {P Q R S : Prop} (hb : b' = b) (hd : d' = d) :
    (b = false → b' = true → P) ∧ (b = true → b' = false → Q) ∧ (d = false → d' = true → R) ∧
      (d = true → d' = false → S) := by
  subst hb hd
  exact ⟨fun h h' => absurd (h.symm.trans h') Bool.false_ne_true, fun h h' => absurd (h'.symm.trans h) Bool.false_ne_true,
    fun h h' => absurd (h.symm.trans h') Bool.false_ne_true, fun h h' => absurd (h'.symm.trans h) Bool.false_ne_true⟩

/-- The edges of BUSY and DONE in an engine step, taken where `turn` holds: those of an ending step. -/
theorem engineStep_edges {s t : State} {turn P R S : Prop} (ht : engineStep s = .next t) (hturn : turn) :
    (s.reg.busy = false → t.reg.busy = true → P) ∧
      (s.reg.busy = true → t.reg.busy = false → (t.reg.done = true ∧ t.seq = .idle ∧ t.reg.result ≠ 0xFF) ∨ R) ∧
      (s.reg.done = false → t.reg.done = true →
        s.seq ≠ .idle ∧ turn ∧ t.seq = .idle ∧ t.reg.busy = false ∧ t.reg.result ≠ 0xFF) ∧
      (s.reg.done = true → t.reg.done = false → S) := by
  obtain ⟨-, ⟨hb, hd⟩ | ⟨hseq, hidle, hb, hd, hr⟩⟩ := engineStep_flags ht
  · exact edges_of_unchanged hb hd
  · exact ⟨fun _ hb' => absurd (hb.symm.trans hb') Bool.false_ne_true, fun _ _ => .inl ⟨hd, hidle, hr⟩,
      fun _ _ => ⟨hseq, hturn, hidle, hb, hr⟩, fun _ hd' => absurd (hd'.symm.trans hd) Bool.false_ne_true⟩

/-- Settles O60: of the moves, only an acceptance, an engine step that ends and reset have an edge of BUSY or DONE. -/
theorem busyEndsOnlyByTheEndingStepOrReset : Obligations.BusyEndsOnlyByTheEndingStepOrReset := by
  intro s t h writesCmd resets
  obtain ⟨ha, ht⟩ | ⟨e, rest, ha, hmove⟩ := step_next h
  · exact engineStep_edges ht (.inl ha)
  · cases hmove with
    | engine he ht =>
      subst he
      exact engineStep_edges (s := { s with env.agenda := rest }) ht (.inr ⟨rest, ha⟩)
    | @accepted c he hb =>
      have hwrites : writesCmd c := ⟨e, rest, ha, he⟩
      exact ⟨fun _ _ => ⟨c, hwrites, rfl, rfl⟩, fun hb' => absurd (hb.symm.trans hb') Bool.false_ne_true,
        fun _ hd => absurd hd Bool.false_ne_true, fun _ _ => .inl ⟨c, hwrites, hb, rfl⟩⟩
    | clearsOvr he hv => exact edges_of_unchanged rfl rfl
    | @reset n he =>
      subst he
      have hresets : resets := ⟨n, rest, ha⟩
      exact ⟨fun _ hb => absurd hb Bool.false_ne_true, fun _ _ => .inr hresets,
        fun _ hd => absurd hd Bool.false_ne_true, fun _ _ => .inr hresets⟩
    | quiet hq hovr => exact edges_of_unchanged (by rw [hq.reg]) (by rw [hq.reg])

/-- Settles O4: a refused write sets OVR and nothing else, and of the moves only a write of STATUS and reset clear it. -/
theorem overrunIsSetByRefusedWritesAndClearedByStatusOrReset :
    Obligations.OverrunIsSetByRefusedWritesAndClearedByStatusOrReset := by
  refine ⟨fun s hb => ⟨fun off v hoff => hostWrite_of_busy hb hoff, fun b a v => hostBufWrite_of_busy hb⟩, hostWrite_status,
    fun s t h hset hclear => ?_⟩
  have hkept (hovr : t.reg.ovr = true) {P : Prop} : P := absurd (hclear.symm.trans hovr) Bool.false_ne_true
  obtain ⟨-, ht⟩ | ⟨e, rest, ha, hmove⟩ := step_next h
  · exact hkept ((engineStep_flags ht).1.trans hset)
  · cases hmove with
    | engine he ht => exact hkept ((engineStep_flags ht).1.trans hset)
    | accepted he hb => exact hkept hset
    | @clearsOvr v he hv => exact .inl ⟨e, v, rest, ha, he, hv⟩
    | @reset n he => subst he; exact .inr ⟨n, rest, ha⟩
    | quiet hq hovr => exact hkept (hovr hset)

end Sys2Proof.Machine
end

section
/-! The link primitives as equations, for an operation in progress, and the buffers as plain storage. -/

namespace Sys2Proof.Machine

/-! ## The link primitives (20_memory.md R72 to R79) -/

section
variable {op : Byte} {k : Nat} {p : Point} {s : State}

/-- Every primitive of an operation in progress counts itself and adds its event (20_memory.md R71; 10_state.md R24). -/
theorem record_of_busy (h : s.seq = .busy op k p) (e : LinkEvent) :
    s.record e = { s with link.history := s.link.history ++ [e], seq := .busy op (k + 1) p } := by
  rw [State.record, h, tick_busy]

theorem linkWrite_ok (h : s.seq = .busy op k p) (ha : s.answer.fails = false) (bs : Bytes) :
    linkWrite bs s = { s with
      link.tl := s.link.tl ++ bs, link.history := s.link.history ++ [.tx bs true], env := s.drawn.env
      seq := .busy op (k + 1) p } := by
  rw [linkWrite, record_of_busy (by exact h), ha]; rfl

theorem linkWrite_ioerr (h : s.seq = .busy op k p) (ha : s.answer.fails = true) (bs : Bytes) :
    linkWrite bs s = { s with
      link.tl := s.link.tl ++ bs.take s.answer.count, link.history := s.link.history ++ [.tx bs false]
      env := s.drawn.env, seq := .busy op (k + 1) p } := by
  rw [linkWrite, record_of_busy (by exact h), ha]; rfl

theorem linkReadByte_of_busy (h : s.seq = .busy op k p) :
    linkReadByte s = { s with
      link.rq := s.link.rq.tail, link.history := s.link.history ++ [.rxb s.link.rq.head?], seq := .busy op (k + 1) p } :=
  record_of_busy (s := { s with link.rq := s.link.rq.tail }) h _

theorem linkReadFailed_of_busy (h : s.seq = .busy op k p) (n : Nat) :
    linkReadFailed n s = { s with
      link.rq := s.link.rq.drop s.answer.count, link.history := s.link.history ++ [.rxn n none], env := s.drawn.env
      seq := .busy op (k + 1) p } :=
  record_of_busy (s := { s.drawn with link.rq := s.link.rq.drop s.answer.count }) h _

theorem linkReadDone_of_busy (h : s.seq = .busy op k p) (n : Nat) :
    linkReadDone n s = { s with
      link.rq := s.link.rq.drop n, link.history := s.link.history ++ [.rxn n (some (s.link.rq.take n))]
      env := s.drawn.env, seq := .busy op (k + 1) p } :=
  record_of_busy (s := { s.drawn with link.rq := s.link.rq.drop n }) h _

theorem linkSetBaud_ok (h : s.seq = .busy op k p) (ha : s.answer.fails = false) (r : BitVec 32) :
    linkSetBaud r s = { s with
      reg.linkBaud := r, link.lineBaud := r, link.history := s.link.history ++ [.baud r true], env := s.drawn.env
      seq := .busy op (k + 1) p } := by
  rw [linkSetBaud, ha]
  exact record_of_busy (s := { s.drawn with reg.linkBaud := r, link.lineBaud := r }) h _

theorem linkSetBaud_fail (h : s.seq = .busy op k p) (ha : s.answer.fails = true) (r : BitVec 32) :
    linkSetBaud r s = { s with
      link.history := s.link.history ++ [.baud r false], env := s.drawn.env, seq := .busy op (k + 1) p } := by
  rw [linkSetBaud, ha]
  exact record_of_busy (s := s.drawn) h _

/-! ## The primitives at their call sites -/

theorem transmit_ok (h : s.seq = .busy op k p) (ha : s.answer.fails = false) (bs : Bytes) (next : Point) :
    transmit bs next s = { s with
      link.tl := s.link.tl ++ bs, link.history := s.link.history ++ [.tx bs true], env := s.drawn.env
      seq := .busy op (k + 1) next } := by
  rw [transmit, ha, linkWrite_ok h ha]; rfl

theorem transmit_ioerr (h : s.seq = .busy op k p) (ha : s.answer.fails = true) (bs : Bytes) (next : Point) :
    transmit bs next s = raiseNext .writeError .linkWrite { s with
      link.tl := s.link.tl ++ bs.take s.answer.count, link.history := s.link.history ++ [.tx bs false]
      env := s.drawn.env, seq := .busy op (k + 1) p } := by
  rw [transmit, ha, linkWrite_ioerr h ha]; rfl

theorem receiveBytes_ok (h : s.seq = .busy op k p) (ha : s.answer.fails = false) {n : Nat} (hn : n ≤ s.link.rq.length)
    (next : Bytes → Point) :
    receiveBytes n next s = { s with
      link.rq := s.link.rq.drop n, link.history := s.link.history ++ [.rxn n (some (s.link.rq.take n))]
      env := s.drawn.env, seq := .busy op (k + 1) (next (s.link.rq.take n)) } := by
  rw [receiveBytes, ha, if_pos hn, linkReadDone_of_busy h]; rfl

theorem receiveBytes_ioerr (h : s.seq = .busy op k p) (ha : s.answer.fails = true) (n : Nat) (next : Bytes → Point) :
    receiveBytes n next s = raiseNext .readError .linkRead { s with
      link.rq := s.link.rq.drop s.answer.count, link.history := s.link.history ++ [.rxn n none], env := s.drawn.env
      seq := .busy op (k + 1) p } := by
  rw [receiveBytes, ha, linkReadFailed_of_busy h]; rfl

/-- With too few bytes the engine holds (20_memory.md R74; log 16). -/
theorem receiveBytes_holds (ha : s.answer.fails = false) {n : Nat} (hn : s.link.rq.length < n) (next : Bytes → Point) :
    receiveBytes n next s = s.drawn := by
  rw [receiveBytes, ha, if_neg (Nat.not_le.2 hn)]; rfl

theorem linkWaitPending_of_pending (h : s.seq = .busy op k p) (hrq : s.link.rq ≠ []) (next : Point) :
    linkWaitPending (·.goto next) s =
      { s with link.history := s.link.history ++ [.pend], seq := .busy op (k + 1) next } := by
  rw [linkWaitPending, if_neg hrq, record_of_busy h]; rfl

end

/-! ## The statements -/

/-- Settles O40: the answer drawn says whether all of the string is sent, or as many bytes of it as the answer counts. -/
theorem linkWriteSendsAllOrAPrefix : Obligations.LinkWriteSendsAllOrAPrefix := by
  intro bs op k p next s h
  exact ⟨fun ha => transmit_ok h ha bs next,
    fun ha => ⟨bs.take s.answer.count, List.take_prefix _ bs, transmit_ioerr h ha bs next⟩⟩

/-- Settles O41: on ioerr as many bytes of the queue are gone as the answer counts. -/
theorem linkReadBytesReturnsFailsOrHolds : Obligations.LinkReadBytesReturnsFailsOrHolds := by
  intro n next op k p s h
  exact ⟨fun ha hn => receiveBytes_ok h ha hn next,
    fun ha => ⟨s.link.rq.drop s.answer.count, List.drop_suffix _ _, receiveBytes_ioerr h ha n next⟩,
    fun ha hn => receiveBytes_holds ha hn next⟩

/-- Settles O42: each primitive is its own change of the state, recorded. -/
theorem shortPrimitivesDoWhatTheySay : Obligations.ShortPrimitivesDoWhatTheySay := by
  intro op k p s h
  refine ⟨fun b rest hrq => ?pending, fun hrq => ?nothing, ?clear, fun r => ⟨fun ha => linkSetBaud_ok h ha r,
    fun ha => linkSetBaud_fail h ha r⟩, fun l => ?rts, fun ms => record_of_busy h _⟩
  case pending => rw [linkReadByte_of_busy h, hrq]; rfl
  case nothing =>
    have htail : s.link.rq.tail = s.link.rq := by rw [hrq, List.tail_nil]
    rw [linkReadByte_of_busy h, htail, List.head?_eq_none_iff.2 hrq]
  case clear => exact record_of_busy (s := { s with link.rq := [] }) h _
  case rts => exact record_of_busy (s := { s with reg.rts := l, link.lineRts := l }) h _

/-- Settles O43: at that place FW_UPDATE performs the wait and nothing else. -/
theorem waitPendingHoldsOnAnEmptyQueue : Obligations.WaitPendingHoldsOnAnEmptyQueue := by
  intro st k s h
  have hexec : exec .fwUpdate s = .next (linkWaitPending (·.goto (.reply st)) s) := by
    simp only [exec, execFwUpdate, h]
  exact ⟨fun hrq => hexec.trans (congrArg _ (linkWaitPending_of_pending h hrq _)),
    fun hrq => hexec.trans (congrArg _ (if_pos hrq))⟩

/-! ## Plain storage (20_memory.md R62) -/

theorem hostBufRead_of_not_busy {s : State} {b : Buf} {a : Nat} (hb : s.reg.busy = false) (ha : a < bufSize b) :
    hostBufRead b a s = { s with env.hostReads := s.env.hostReads ++ [s.buf.byteAt b a] } := by
  rw [hostBufRead, if_neg (Nat.not_le.2 ha), hb]; rfl

theorem hostBufRead_gives_one_byte (s : State) (b : Buf) (a : Nat) :
    ∃ (v : Byte) (n : Nat), hostBufRead b a s = { s with env.hostReads := s.env.hostReads ++ [v], env.freeReads := n } := by
  obtain ⟨v, h⟩ | h := hostBufRead_cases s b a
  · exact ⟨v, s.env.freeReads, h⟩
  · exact ⟨_, _, h⟩

/-- Settles O8: the buffer laws of Laws/Memory.lean, and the host's accesses as single reads and writes of them. -/
theorem bufferBytesArePlainStorage : Obligations.BufferBytesArePlainStorage := by
  refine ⟨fun m b a v ha => byteAt_setByte_same m v ha, fun m b c a x v hne => byteAt_setByte_other m v (not_and_or.1 hne),
    fun m b a bs hfit => ⟨bytes_setBytes_same m bs hfit, fun c x hout => byteAt_setBytes_other m bs ?outside⟩,
    fun s b a => ⟨fun hb ha => hostBufRead_of_not_busy hb ha,
      fun v hb _ hrx hinfo => hostBufWrite_of_writable hb (hostWritable_iff.2 ⟨hrx, hinfo⟩),
      hostBufRead_gives_one_byte s b a⟩⟩
  case outside => exact (not_and_or.1 hout).imp id fun h => by omega

end Sys2Proof.Machine
end

section
/-! What a step adds to the transmit log and to the link history: a primitive hands over bytes and adds its event, every other
update leaves the link alone. -/

namespace Sys2Proof.Machine

/-- The transmit log has only grown, and at most one event has joined the history (20_memory.md R70, R71). -/
structure Link.Grows (l l' : Link) : Prop where
  tl : l.tl <+: l'.tl
  history : l'.history = l.history ∨ ∃ e, l'.history = l.history ++ [e]

theorem Link.Grows.refl (l : Link) : l.Grows l := ⟨List.prefix_rfl, .inl rfl⟩

/-- A link whose logs are the same. -/
theorem Link.Grows.of_logs_eq {l l' : Link} (htl : l'.tl = l.tl) (hh : l'.history = l.history) : l.Grows l' :=
  ⟨htl ▸ List.prefix_rfl, .inl hh⟩

theorem Link.Grows.of_eq {l l' : Link} (h : l' = l) : l.Grows l' := h ▸ .refl l

/-- A primitive that sends nothing. -/
theorem Link.Grows.event {l l' : Link} {e : LinkEvent} (htl : l'.tl = l.tl) (hh : l'.history = l.history ++ [e]) :
    l.Grows l' := ⟨htl ▸ List.prefix_rfl, .inr ⟨e, hh⟩⟩

section
variable (s : State)

/-! ## Primitives (20_memory.md R72 to R79) -/

theorem linkWrite_grows (bs : Bytes) : s.link.Grows (linkWrite bs s).link := ⟨List.prefix_append _ _, .inr ⟨_, rfl⟩⟩

theorem linkReadByte_grows : s.link.Grows (linkReadByte s).link := .event rfl rfl

theorem linkSetBaud_grows (r : BitVec 32) : s.link.Grows (linkSetBaud r s).link := by
  obtain ⟨-, h⟩ | ⟨-, h⟩ := linkSetBaud_cases s r <;> rw [h] <;> exact .event rfl rfl

theorem linkSetRts_grows (level : Bool) : s.link.Grows (linkSetRts level s).link := .event rfl rfl

theorem linkClear_grows : s.link.Grows (linkClear s).link := .event rfl rfl

theorem linkWaitPending_grows (q : Point) : s.link.Grows (linkWaitPending (·.goto q) s).link := by
  obtain ⟨-, h⟩ | ⟨-, h⟩ := linkWaitPending_cases s (·.goto q) <;> rw [h]
  · exact .event rfl rfl
  · exact .refl _

theorem sleepThen_grows (ms : Nat) (q : Point) : s.link.Grows (sleepThen ms q s).link := .event rfl rfl

theorem transmit_grows (bs : Bytes) (q : Point) : s.link.Grows (transmit bs q s).link := by
  obtain ⟨-, h⟩ | ⟨-, h⟩ := transmit_cases s bs q <;> rw [h] <;> exact linkWrite_grows s bs

theorem receiveBytes_grows (n : Nat) (g : Bytes → Point) : s.link.Grows (receiveBytes n g s).link := by
  obtain ⟨-, h⟩ | ⟨-, -, h⟩ | ⟨-, -, h⟩ := receiveBytes_cases s n g <;> rw [h]
  · exact .event rfl rfl
  · exact .event rfl rfl
  · exact .refl _

theorem pollAttempt_grows (failed : Nat) (aft : AfterPoll) : s.link.Grows (pollAttempt failed aft s).link := by
  obtain ⟨-, h⟩ | ⟨-, -, h⟩ | ⟨-, -, h⟩ := pollAttempt_cases s failed aft <;> rw [h] <;> exact linkReadByte_grows s

theorem identifyRead_grows : s.link.Grows (identifyRead s).link := by
  unfold identifyRead
  split <;> exact linkReadByte_grows s

/-! ## Updates that leave the link alone -/

@[simp] theorem ifAttached_goto_link (q : Point) : (ifAttached (·.goto q) s).link = s.link := by
  unfold ifAttached; split <;> simp

@[simp] theorem edidChecksums_link (nblk : Byte) : (edidChecksums nblk s).link = s.link := by
  unfold edidChecksums; split_ifs <;> simp

@[simp] theorem edidIsvalid_link : (edidIsvalid s).link = s.link := by unfold edidIsvalid; split <;> simp

@[simp] theorem fwValidate_link : (fwValidate s).link = s.link := by unfold fwValidate; split <;> simp

@[simp] theorem fuEncode_link (opcode : Byte) : (fuEncode opcode s).link = s.link := by
  unfold fuEncode; dsimp only; split <;> simp [encodeFrame]

@[simp] theorem fuDecode_link (request : Byte) : (fuDecode request s).link = s.link := by
  unfold fuDecode
  dsimp only
  split
  · simp
  · split <;> simp

@[simp] theorem selectStart_link (position : Byte) : (selectStart position s).link = s.link := by
  unfold selectStart; split_ifs <;> simp

@[simp] theorem readEdidEnd_link : (readEdidEnd s).link = s.link := by unfold readEdidEnd; split <;> simp

@[simp] theorem writeEdidValidate_link : (writeEdidValidate s).link = s.link := by
  unfold writeEdidValidate; split <;> simp

@[simp] theorem updateStart_link : (updateStart s).link = s.link := ifAttached_goto_link _ _

@[simp] theorem updateValidate_link : (updateValidate s).link = s.link := by
  unfold updateValidate; dsimp only; split <;> simp

@[simp] theorem acceptReply_link (st : Stage) (r : Bytes) : (acceptReply st r s).link = s.link := by
  have hstore : (if st = .di then s.setBytes .info 0 r else s).link = s.link := by split <;> rfl
  unfold acceptReply
  dsimp only
  split <;> simp [hstore]

@[simp] theorem checkReply_link (st : Stage) (r : Bytes) : (checkReply st r s).link = s.link := by
  unfold checkReply; dsimp only; split <;> simp

end

/-! ## Instructions -/

section
variable {s t : State} {op : Byte} {k : Nat} {p : Point}

theorem execSelect_grows (h : s.seq = .busy op k p) {position : Byte} (ht : execSelect position s = .next t) :
    s.link.Grows t.link := by
  rw [execSelect, h] at ht
  cases p with
  | start => cases ht; exact .of_eq (selectStart_link s position)
  | settle => cases ht; exact sleepThen_grows s _ _
  | setSel => cases ht; exact .refl _
  | ending r d => cases ht; exact .refl _
  | _ => cases ht

theorem cecStep_grows (h : s.seq = .busy op k p) (ht : cecStep s = .next t) : s.link.Grows t.link := by
  rw [cecStep, h] at ht
  cases p with
  | start => cases ht; exact .of_eq (ifAttached_goto_link s _)
  | settle => cases ht; exact sleepThen_grows s _ _
  | ending r d => cases ht; exact .refl _
  | _ => cases ht

theorem execIdentify_grows (h : s.seq = .busy op k p) (ht : execIdentify s = .next t) : s.link.Grows t.link := by
  rw [execIdentify, h] at ht
  cases p with
  | start => cases ht; exact .of_eq (ifAttached_goto_link s _)
  | settle => cases ht; exact sleepThen_grows s _ _
  | receive => cases ht; exact identifyRead_grows s
  | storeId b => cases ht; exact .refl _
  | ending r d => cases ht; exact .refl _
  | _ => cases ht

theorem execReadEdid_grows (h : s.seq = .busy op k p) (ht : execReadEdid s = .next t) : s.link.Grows t.link := by
  rw [execReadEdid, h] at ht
  cases p with
  | start => cases ht; exact .of_eq (ifAttached_goto_link s _)
  | pollSleep failed aft => cases ht; exact sleepThen_grows s _ _
  | readBlock ext => cases ht; exact receiveBytes_grows s _ _
  | storeBlock ext r => cases ht; exact .refl _
  | nextSettle => cases ht; exact sleepThen_grows s _ _
  | check => cases ht; exact .of_eq (readEdidEnd_link s)
  | ending r d => cases ht; exact .refl _
  | _ => cases ht

theorem execWriteEdid_grows (h : s.seq = .busy op k p) (ht : execWriteEdid s = .next t) : s.link.Grows t.link := by
  rw [execWriteEdid, h] at ht
  cases p with
  | start => cases ht; exact .of_eq (ifAttached_goto_link s _)
  | validate => cases ht; exact .of_eq (writeEdidValidate_link s)
  | pollSleep failed aft => cases ht; exact sleepThen_grows s _ _
  | writeBlock ext => cases ht; exact transmit_grows s _ _
  | ending r d => cases ht; exact .refl _
  | _ => cases ht

theorem execFwUpdate_grows (h : s.seq = .busy op k p) (ht : execFwUpdate s = .next t) : s.link.Grows t.link := by
  rw [execFwUpdate, h] at ht
  cases p with
  | start => cases ht; exact .of_eq (updateStart_link s)
  | validate => cases ht; exact .of_eq (updateValidate_link s)
  | enterBaud => cases ht; exact linkSetBaud_grows s _
  | enterRts => cases ht; exact linkSetRts_grows s _
  | enterSleep => cases ht; exact sleepThen_grows s _ _
  | enterClear => cases ht; exact linkClear_grows s
  | enSleep => cases ht; exact sleepThen_grows s _ _
  | pending st => cases ht; exact linkWaitPending_grows s _
  | tearBaud r d => cases ht; exact linkSetBaud_grows s _
  | tearRts r d => cases ht; exact linkSetRts_grows s _
  | tearSleep r d => cases ht; exact sleepThen_grows s _ _
  | tearClear r d => cases ht; exact linkClear_grows s
  | enter | phase | nextChunk | allPassed | ending => cases ht; exact .refl _
  | _ => cases ht

theorem sendDeviceByte_grows {b : Byte} (ht : sendDeviceByte b s = .next t) : s.link.Grows t.link := by
  obtain ⟨_, _, -, rfl⟩ | ⟨_, _, -, rfl⟩ := sendDeviceByte_next s ht <;> exact transmit_grows s _ _

theorem execDevReady_grows (h : s.seq = .busy op k p) (ht : execDevReady s = .next t) : s.link.Grows t.link := by
  rw [execDevReady, h] at ht
  cases p with
  | pollRead failed aft => cases ht; exact pollAttempt_grows s _ _
  | _ => cases ht

theorem requestStep_grows {st : Stage} (ht : requestStep st s = .next t) : s.link.Grows t.link := by
  obtain ⟨_, _, -, -, rfl⟩ | ⟨_, _, -, -, rfl⟩ := requestStep_next s ht
  · exact .refl _
  · exact transmit_grows s _ _

theorem replyStep_grows {st : Stage} (ht : replyStep st s = .next t) : s.link.Grows t.link := by
  obtain ⟨_, _, -, -, rfl⟩ | ⟨_, _, r, -, -, rfl⟩ := replyStep_next s ht
  · exact receiveBytes_grows s _ _
  · exact .of_eq (checkReply_link s st r)

/-- A step of any instruction adds to the logs what its primitive does. -/
theorem exec_grows (h : s.seq = .busy op k p) {i : Instr} (ht : exec i s = .next t) : s.link.Grows t.link := by
  cases i with
  | edidChecksums nblk =>
    rw [exec, execEdidChecksums, h] at ht
    cases p with
    | start => cases ht; exact .of_eq (edidChecksums_link s nblk)
    | _ => cases ht
  | edidIsvalid =>
    rw [exec, execEdidIsvalid, h] at ht
    cases p with
    | start => cases ht; exact .of_eq (edidIsvalid_link s)
    | _ => cases ht
  | fwValidate =>
    rw [exec, execFwValidate, h] at ht
    cases p with
    | start => cases ht; exact .of_eq (fwValidate_link s)
    | _ => cases ht
  | fuEncode opcode =>
    rw [exec, execFuEncode, h] at ht
    cases p with
    | start => cases ht; exact .of_eq (fuEncode_link s opcode)
    | _ => cases ht
  | fuDecode request =>
    rw [exec, execFuDecode, h] at ht
    cases p with
    | start => cases ht; exact .of_eq (fuDecode_link s request)
    | _ => cases ht
  | select position => exact execSelect_grows h ht
  | cecConnect | cecDisconnect => exact cecStep_grows h ht
  | identify => exact execIdentify_grows h ht
  | readEdid => exact execReadEdid_grows h ht
  | writeEdid => exact execWriteEdid_grows h ht
  | fwUpdate => exact execFwUpdate_grows h ht
  | devSelDefault | devSel1 | devSel2 | devSel3 | devNextBlock | devReadDisplay | devCecOn | devCecOff | devWrite | devIdent
    | devReadDevice => exact sendDeviceByte_grows ht
  | devReady => exact execDevReady_grows h ht
  | fuReqEn | fuReqMode | fuReqDi | fuReqCt | fuReqPart1 | fuReqPart2 | fuReqDt | fuReqAd => exact requestStep_grows ht
  | fuRepEn | fuRepMode | fuRepDi | fuRepCt | fuRepPart1 | fuRepPart2 | fuRepDt | fuRepAd => exact replyStep_grows ht

theorem undecoded_grows {e : DecodeError} (ht : undecoded e s = .next t) : s.link.Grows t.link := by
  cases e with
  | reservedCommand c => cases ht; exact .of_eq (raise_link s _ _)
  | _ => cases ht

/-- The engine's step waits in IDLE, else it performs one primitive at most. -/
theorem engineStep_grows (ht : engineStep s = .next t) : s.link.Grows t.link := by
  cases h : s.seq with
  | idle =>
    rw [engineStep_of_fetch_none (fetch_of_idle h)] at ht
    cases ht; exact .refl _
  | busy op k p =>
    obtain ⟨hnone, -⟩ | ⟨_, _, _, -, -, heq⟩ | ⟨_, _, _, -, -, heq⟩ := engineStep_cases s
    · exact absurd hnone (fetch_ne_none h)
    · exact exec_grows h (heq.symm.trans ht)
    · exact undecoded_grows (heq.symm.trans ht)

/-! ## The other agents' moves -/

@[simp] theorem hostWrite_link (s : State) (off v : Byte) : (hostWrite off v s).link = s.link := by
  unfold hostWrite writeStatus writeFree
  split
  · split <;> rfl
  · split
    · rfl
    · split <;> rfl

@[simp] theorem hostRead_link (s : State) (off : Byte) : (hostRead off s).link = s.link := by
  obtain ⟨v, n, h⟩ := hostRead_gives_one_byte s off
  rw [h]

@[simp] theorem hostBufWrite_link (s : State) (b : Buf) (a : Nat) (v : Byte) : (hostBufWrite b a v s).link = s.link := by
  unfold hostBufWrite; split_ifs <;> rfl

@[simp] theorem hostBufRead_link (s : State) (b : Buf) (a : Nat) : (hostBufRead b a s).link = s.link := by
  obtain ⟨v, n, h⟩ := hostBufRead_gives_one_byte s b a
  rw [h]

@[simp] theorem hostWaitDone_link (s : State) : (hostWaitDone s).link = s.link := by
  unfold hostWaitDone; dsimp only; split <;> simp

/-- Of the other agents only reset adds to the transmit log: what a write in progress has sent (70_reset_and_hazards.md
R292). -/
theorem move_grows {e : Event} (ht : move e s = .next t) : s.link.Grows t.link := by
  unfold move at ht
  split at ht
  · exact engineStep_grows ht
  all_goals cases ht
  · exact .of_eq (hostWrite_link s _ _)
  · exact .of_eq (hostRead_link s _)
  · exact .of_eq (hostBufWrite_link s _ _ _)
  · exact .of_eq (hostBufRead_link s _ _)
  · exact .refl _
  · exact .refl _
  · exact .of_eq (hostWaitDone_link s)
  · exact .of_logs_eq rfl rfl
  · exact .of_logs_eq rfl rfl
  · exact .of_logs_eq rfl rfl
  · exact ⟨List.prefix_append _ _, .inl rfl⟩

end

/-- Settles O58: each meaning performs one primitive at most, and no other move takes anything from the logs. -/
theorem linkLogsOnlyGrow : Obligations.LinkLogsOnlyGrow := by
  intro s t h
  have hgrows : s.link.Grows t.link := by
    obtain ⟨-, heq⟩ | ⟨e, rest, -, heq⟩ := step_cases s <;> rw [heq] at h
    · exact engineStep_grows h
    · exact move_grows (s := { s with env.agenda := rest }) h
  exact ⟨hgrows.tl, hgrows.history⟩

end Sys2Proof.Machine
end

section
/-! No step stops in a state that meets the invariant: at every place of an operation its row, or the device byte or packet that
stands there, has a next state, and what a packet reads or writes fits its buffer. -/

namespace Sys2Proof.Machine

/-! ## Packets fit their buffers (00_scope.md R10; 20_memory.md R61) -/

/-- Every request and every reply is at most FRAME_CAP bytes long. -/
theorem packetLens_le {p : Params} (h : p.ok = true) (st : Stage) :
    st.reqLen p ≤ Config.frameCap ∧ st.repLen p ≤ Config.frameCap := by
  simp only [Params.ok, Params.lengthsOk, Bool.and_eq_true, decide_eq_true_eq] at h
  obtain ⟨⟨-, ⟨⟨⟨⟨⟨⟨-, h80⟩, -⟩, hA2⟩, -⟩, hA4⟩, -⟩, hA5⟩, -⟩ := h
  cases st <;> simp [Stage.reqLen, Stage.repLen, Config.frameCap, Config.infoLen, h80, hA2, hA4, hA5]

section
variable {s : State} {op : Byte} {k : Nat} {p : Point} {st : Stage}

theorem State.Inv.requestFits (hs : s.Inv) (st : Stage) : requestFits s st = true := by
  simp [Machine.requestFits, (packetLens_le hs.params st).1, hs.chunk]

theorem State.Inv.replyFits (hs : s.Inv) (st : Stage) : replyFits s st = true :=
  decide_eq_true (packetLens_le hs.params st).2

/-- The bytes a phase has read are a whole reply. -/
theorem State.Inv.gotFits (hs : s.Inv) {r : Bytes} (h : s.seq = .busy op k (.gotReply st r)) : gotFits s st r = true := by
  have hlen := (Bool.and_eq_true_iff.1 (hs.place op k _ h)).2
  exact Bool.and_eq_true_iff.2 ⟨hlen, hs.replyFits st⟩

theorem packetStep_isNext {fits : Bool} (hfits : fits = true) (t : State) : ∃ u, packetStep st st fits t = .next u :=
  ⟨t, by rw [packetStep, if_pos rfl, if_pos hfits]⟩

theorem requestStep_isNext (hs : s.Inv) (h : s.seq = .busy op k p) (hp : p = .build st ∨ p = .request st) :
    ∃ t, requestStep st s = .next t := by
  obtain rfl | rfl := hp <;> simp only [requestStep, h] <;> exact packetStep_isNext (hs.requestFits st) _

theorem replyStep_isNext (hs : s.Inv) (h : s.seq = .busy op k p) (hp : p = .reply st ∨ ∃ r, p = .gotReply st r) :
    ∃ t, replyStep st s = .next t := by
  obtain rfl | ⟨r, rfl⟩ := hp <;> simp only [replyStep, h]
  · exact packetStep_isNext (hs.replyFits st) _
  · exact packetStep_isNext (hs.gotFits h) _

/-! ## Device bytes (30_encoding.md R95, R107) -/

theorem decodeDevice_select {x : Byte} (hx : x.toNat ≤ 3) : ∃ i, decodeDevice (0x01 + x) = .ok i := by
  have hx' : x = 0 ∨ x = 1 ∨ x = 2 ∨ x = 3 := by bv_omega
  obtain rfl | rfl | rfl | rfl := hx' <;> exact ⟨_, rfl⟩

/-- The byte an operation sends is one of R95. -/
theorem decodeDevice_deviceByte (h : legalAt op s .send = true) : ∃ i, decodeDevice (deviceByte op s) = .ok i := by
  obtain ⟨rfl, hx⟩ | rfl | rfl | rfl | rfl | rfl := legalAt_send_iff.1 h
  · exact decodeDevice_select hx
  · exact ⟨_, rfl⟩
  · exact ⟨_, rfl⟩
  · exact ⟨_, rfl⟩
  · by_cases hsel : s.reg.sel = 4 <;> simp only [deviceByte, hsel] <;> exact ⟨_, rfl⟩
  · exact ⟨_, rfl⟩

/-! ## The operations' own rows -/

theorem space_of_decodeHost {c x : Byte} {i : Instr} (h : decodeHost c x = .ok i) : i.space = .host := by
  unfold decodeHost at h
  iterate 12
    obtain ⟨-, h⟩ | ⟨-, h⟩ := ite_eq_iff.1 h
    · obtain rfl := Except.ok.inj h; rfl
  cases h

/-- A host code that no row has is a reserved one (30_encoding.md R93). -/
theorem reserved_of_decodeHost {c x : Byte} {e : DecodeError} (h : decodeHost c x = .error e) : e = .reservedCommand c := by
  unfold decodeHost at h
  iterate 12
    obtain ⟨-, h⟩ | ⟨-, h⟩ := ite_eq_iff.1 h
    · cases h
  exact (Except.error.inj h).symm

/-- Every host command has a first step. -/
theorem exec_start_isNext (h : s.seq = .busy op k .start) {i : Instr} (hi : i.space = .host) : ∃ t, exec i s = .next t := by
  cases i with
  | edidChecksums | edidIsvalid | fwValidate | fuEncode | fuDecode | select | cecConnect | cecDisconnect | identify | readEdid
    | writeEdid | fwUpdate =>
    simp only [exec, execEdidChecksums, execEdidIsvalid, execFwValidate, execFuEncode, execFuDecode, execSelect,
      execCecConnect, execCecDisconnect, cecStep, execIdentify, execReadEdid, execWriteEdid, execFwUpdate, h]
    exact ⟨_, rfl⟩
  | _ => cases hi

/-- The operations whose own row has a step at a place after the start (files 41 and 43). -/
def Point.ownOps : Point → List Byte
  | .validate => [0x15, 0x20]
  | .settle => [0x10, 0x11, 0x12, 0x13]
  | .setSel => [0x10]
  | .receive | .storeId _ => [0x13]
  | .pollSleep _ _ => [0x14, 0x15]
  | .readBlock _ | .storeBlock _ _ | .nextSettle | .check => [0x14]
  | .writeBlock _ => [0x15]
  | .enter | .enterBaud | .enterRts | .enterSleep | .enterClear | .phase _ | .enSleep | .pending _ | .nextChunk | .allPassed
    | .tearBaud _ _ | .tearRts _ _ | .tearSleep _ _ | .tearClear _ _ => [0x20]
  | .ending _ _ => [0x10, 0x11, 0x12, 0x13, 0x14, 0x15, 0x20]
  | .start | .send | .sendNext | .pollRead _ _ | .build _ | .request _ | .reply _ | .gotReply _ _ => []

/-- An operation stands only where its row has a step. -/
theorem mem_ownOps_of_legalAt (hp : p.isOwn = true) (hstart : p ≠ .start) (hs : legalAt op s p = true) : op ∈ p.ownOps := by
  cases p with
  | start => exact absurd rfl hstart
  | send | sendNext | pollRead | build | request | reply | gotReply => cases hp
  | pollSleep failed aft =>
    have hop := eq_of_beq (Bool.and_eq_true_iff.1 hs).2
    by_cases haft : aft = .readBlock0 <;> simp [Point.ownOps, hop, haft]
  | validate | settle | ending =>
    simp only [legalAt, inUpdate, Bool.or_eq_true, Bool.and_eq_true, beq_iff_eq] at hs
    simp only [Point.ownOps, List.mem_cons, List.not_mem_nil]
    tauto
  | _ =>
    simp only [legalAt, inUpdate, Bool.and_eq_true, beq_iff_eq] at hs
    simp [Point.ownOps, hs]

theorem execSelect_isNext (h : s.seq = .busy op k p) (hop : 0x10 ∈ p.ownOps) (x : Byte) :
    ∃ t, execSelect x s = .next t := by
  rw [execSelect, h]
  cases p with
  | settle | setSel | ending => exact ⟨_, rfl⟩
  | _ => simp [Point.ownOps] at hop

theorem cecStep_isNext (h : s.seq = .busy op k p) (hop : 0x11 ∈ p.ownOps ∨ 0x12 ∈ p.ownOps) :
    ∃ t, cecStep s = .next t := by
  rw [cecStep, h]
  cases p with
  | settle | ending => exact ⟨_, rfl⟩
  | _ => simp [Point.ownOps] at hop

theorem execIdentify_isNext (h : s.seq = .busy op k p) (hop : 0x13 ∈ p.ownOps) : ∃ t, execIdentify s = .next t := by
  rw [execIdentify, h]
  cases p with
  | settle | receive | storeId | ending => exact ⟨_, rfl⟩
  | _ => simp [Point.ownOps] at hop

theorem execReadEdid_isNext (h : s.seq = .busy op k p) (hop : 0x14 ∈ p.ownOps) : ∃ t, execReadEdid s = .next t := by
  rw [execReadEdid, h]
  cases p with
  | pollSleep | readBlock | storeBlock | nextSettle | check | ending => exact ⟨_, rfl⟩
  | _ => simp [Point.ownOps] at hop

theorem execWriteEdid_isNext (h : s.seq = .busy op k p) (hop : 0x15 ∈ p.ownOps) : ∃ t, execWriteEdid s = .next t := by
  rw [execWriteEdid, h]
  cases p with
  | validate | pollSleep | writeBlock | ending => exact ⟨_, rfl⟩
  | _ => simp [Point.ownOps] at hop

theorem execFwUpdate_isNext (h : s.seq = .busy op k p) (hop : 0x20 ∈ p.ownOps) : ∃ t, execFwUpdate s = .next t := by
  rw [execFwUpdate, h]
  cases p with
  | validate | enter | enterBaud | enterRts | enterSleep | enterClear | enSleep | pending | phase | nextChunk | allPassed
    | tearBaud | tearRts | tearSleep | tearClear | ending => exact ⟨_, rfl⟩
  | _ => simp [Point.ownOps] at hop

/-- Only the operations that use the link have places after their start. -/
theorem ownOps_subset (p : Point) : p.ownOps ⊆ [0x10, 0x11, 0x12, 0x13, 0x14, 0x15, 0x20] := by
  cases p <;> simp [Point.ownOps]

/-- The row of an operation has a step at each of its places. -/
theorem exec_own_isNext (h : s.seq = .busy op k p) (hop : op ∈ p.ownOps) {i : Instr}
    (hd : decodeHost op s.int.oparg = .ok i) : ∃ t, exec i s = .next t := by
  have hlink := ownOps_subset p hop
  simp only [List.mem_cons, List.not_mem_nil, or_false] at hlink
  obtain rfl | rfl | rfl | rfl | rfl | rfl | rfl := hlink <;> cases hd
  · exact execSelect_isNext h hop _
  · exact cecStep_isNext h (.inl hop)
  · exact cecStep_isNext h (.inr hop)
  · exact execIdentify_isNext h hop
  · exact execReadEdid_isNext h hop
  · exact execWriteEdid_isNext h hop
  · exact execFwUpdate_isNext h hop

/-! ## The engine and the agenda -/

/-- At a place of its own an operation makes its row's step, or ends as a reserved code. -/
theorem engineStep_own_isNext (hs : s.Inv) (h : s.seq = .busy op k p) (hp : p.isOwn = true) :
    ∃ t, engineStep s = .next t := by
  have hf := fetch_own h hp
  cases hd : decodeHost op s.int.oparg with
  | error e =>
    obtain rfl := reserved_of_decodeHost hd
    exact ⟨_, engineStep_of_reserved hf hd⟩
  | ok i =>
    rw [engineStep_of_decode hf hd]
    by_cases hstart : p = .start
    · subst hstart; exact exec_start_isNext h (space_of_decodeHost hd)
    · exact exec_own_isNext h (mem_ownOps_of_legalAt hp hstart (hs.place op k p h)) hd

theorem engineStep_isNext (hs : s.Inv) : ∃ t, engineStep s = .next t := by
  cases h : s.seq with
  | idle => exact ⟨s, engineStep_of_fetch_none (fetch_of_idle h)⟩
  | busy op k p =>
    by_cases hp : p.isOwn = true
    · exact engineStep_own_isNext hs h hp
    cases p with
    | send =>
      obtain ⟨i, hi⟩ := decodeDevice_deviceByte (hs.place op k _ h)
      rw [engineStep_of_decode (fetch_send h) hi, exec_of_decodeDevice hi, sendDeviceByte, h]
      exact ⟨_, rfl⟩
    | sendNext =>
      rw [engineStep_of_decode (i := .devNextBlock) (fetch_sendNext h) rfl, exec, execDevNextBlock, sendDeviceByte, h]
      exact ⟨_, rfl⟩
    | pollRead failed aft =>
      rw [engineStep_of_decode (i := .devReady) (fetch_pollRead h) rfl, exec, execDevReady, h]
      exact ⟨_, rfl⟩
    | build st | request st =>
      rw [engineStep_of_decode (fetch_request h (by simp)) (decode_reqOp st), exec_requestInstr]
      exact requestStep_isNext hs h (by simp)
    | reply st | gotReply st r =>
      rw [engineStep_of_decode (fetch_reply h (by simp)) (decode_repOp st), exec_replyInstr]
      exact replyStep_isNext hs h (by simp)
    | _ => exact absurd rfl hp

/-- Of the agenda's moves only the engine's can stop. -/
theorem move_isNext (hs : s.Inv) (e : Event) : ∃ t, move e s = .next t := by
  unfold move
  split
  · exact engineStep_isNext hs
  all_goals exact ⟨_, rfl⟩

end

/-- Settles O57: the invariant holds with the move taken off the agenda too, and a move stops only where the engine does. -/
theorem noStepStopsUnderTheInvariant : Obligations.NoStepStopsUnderTheInvariant := by
  intro s hs
  obtain ⟨-, heq⟩ | ⟨e, rest, -, heq⟩ := step_cases s <;> rw [heq]
  · exact engineStep_isNext hs
  · exact move_isNext ((Quiet.outside s s.link _).inv hs) e

end Sys2Proof.Machine
end

section
/-! The codec: a code word decodes to its instruction, a decoded word is its row's own, and a reserved host code decodes to
nothing. -/

namespace Sys2Proof.Laws.DecodesBack

/-- The laws of the single rows together. -/
theorem of_instr : ∀ i : Instr, Statement i
  | .edidChecksums nblk => edidChecksums nblk | .edidIsvalid => edidIsvalid | .fwValidate => fwValidate
  | .fuEncode opcode => fuEncode opcode | .fuDecode request => fuDecode request | .select position => select position
  | .cecConnect => cecConnect | .cecDisconnect => cecDisconnect | .identify => identify | .readEdid => readEdid
  | .writeEdid => writeEdid | .fwUpdate => fwUpdate
  | .devSelDefault => devSelDefault | .devSel1 => devSel1 | .devSel2 => devSel2 | .devSel3 => devSel3
  | .devNextBlock => devNextBlock | .devReadDisplay => devReadDisplay | .devCecOn => devCecOn | .devCecOff => devCecOff
  | .devWrite => devWrite | .devIdent => devIdent | .devReadDevice => devReadDevice
  | .devReady => devReady
  | .fuReqEn => fuReqEn | .fuReqMode => fuReqMode | .fuReqDi => fuReqDi | .fuReqCt => fuReqCt
  | .fuReqPart1 => fuReqPart1 | .fuReqPart2 => fuReqPart2 | .fuReqDt => fuReqDt | .fuReqAd => fuReqAd
  | .fuRepEn => fuRepEn | .fuRepMode => fuRepMode | .fuRepDi => fuRepDi | .fuRepCt => fuRepCt
  | .fuRepPart1 => fuRepPart1 | .fuRepPart2 => fuRepPart2 | .fuRepDt => fuRepDt | .fuRepAd => fuRepAd

end Sys2Proof.Laws.DecodesBack

namespace Sys2Proof.Machine

/-! ## What a decoded word re-encodes to -/

/-- The host commands that do not read OPARG (30_encoding.md R92). -/
def operandIgnored : List Instr :=
  [.edidIsvalid, .fwValidate, .cecConnect, .cecDisconnect, .identify, .readEdid, .writeEdid, .fwUpdate]

section
variable {i : Instr}

/-- The code byte is kept, and the operand byte where the command reads it (log 26). -/
theorem encode_of_decodeHost {c x : Byte} (h : decodeHost c x = .ok i) :
    encode i = [c, x] ∨ encode i = [c, 0x00] ∧ i ∈ operandIgnored := by
  unfold decodeHost at h
  iterate 12
    obtain ⟨rfl, h⟩ | ⟨-, h⟩ := ite_eq_iff.1 h
    · obtain rfl := Except.ok.inj h; simp [encode, operandIgnored]
  cases h

theorem encode_of_decodeDevice {b : Byte} (h : decodeDevice b = .ok i) : i.space = .device ∧ encode i = [b] := by
  unfold decodeDevice at h
  iterate 11
    obtain ⟨rfl, h⟩ | ⟨-, h⟩ := ite_eq_iff.1 h
    · obtain rfl := Except.ok.inj h; exact ⟨rfl, rfl⟩
  cases h

theorem encode_of_decodeInbound {b : Byte} (h : decodeInbound b = .ok i) : i.space = .inbound ∧ encode i = [b] := by
  unfold decodeInbound at h
  obtain ⟨rfl, h⟩ | ⟨-, h⟩ := ite_eq_iff.1 h
  · obtain rfl := Except.ok.inj h; exact ⟨rfl, rfl⟩
  · cases h

theorem encode_of_decodePacketOp {op : Byte} (h : decodePacketOp op = .ok i) :
    i.space = .packet ∧ encode i = [0x46, 0x55, op] := by
  unfold decodePacketOp at h
  iterate 16
    obtain ⟨rfl, h⟩ | ⟨-, h⟩ := ite_eq_iff.1 h
    · obtain rfl := Except.ok.inj h; exact ⟨rfl, rfl⟩
  cases h

theorem encode_of_decodePacket {b0 b1 op : Byte} (h : decodePacket b0 b1 op = .ok i) :
    i.space = .packet ∧ encode i = [b0, b1, op] := by
  unfold decodePacket at h
  obtain ⟨⟨rfl, rfl⟩, h⟩ | ⟨-, h⟩ := ite_eq_iff.1 h
  · exact encode_of_decodePacketOp h
  · cases h

end

/-! ## Reserved host codes (30_encoding.md R93) -/

/-- The codes that R93 reserves. -/
abbrev ReservedCode (c : Byte) : Prop :=
  c = 0x00 ∨ (0x06 ≤ c.toNat ∧ c.toNat ≤ 0x0F) ∨ (0x16 ≤ c.toNat ∧ c.toNat ≤ 0x1F) ∨ 0x21 ≤ c.toNat

/-- No row of R91 has a reserved code. -/
theorem decodeHost_of_reserved {c : Byte} (h : ReservedCode c) (x : Byte) : decodeHost c x = .error (.reservedCommand c) := by
  cases hd : decodeHost c x with
  | error e => rw [reserved_of_decodeHost hd]
  | ok i =>
    unfold decodeHost at hd
    iterate 12
      obtain ⟨rfl, -⟩ | ⟨-, hd⟩ := ite_eq_iff.1 hd
      · exact absurd h (by decide)
    cases hd

/-! ## The statements -/

/-- Settles O10: the format says which byte names the row, and only a host command's word has a byte that may be ignored. -/
theorem decodedWordsReencode : Obligations.DecodedWordsReencode := by
  intro sp bs i h
  unfold decode at h
  split at h
  next c x rest =>
    refine ⟨space_of_decodeHost h, fun hne => absurd rfl hne, fun _ => ?_⟩
    obtain he | ⟨he, hi⟩ := encode_of_decodeHost h
    · rw [he]; exact ⟨rfl, .inl rfl⟩
    · rw [he]; exact ⟨rfl, .inr ⟨rfl, hi⟩⟩
  next b rest =>
    obtain ⟨hs, he⟩ := encode_of_decodeDevice h
    exact ⟨hs, fun _ => he ▸ List.prefix_append [b] rest, nofun⟩
  next b rest =>
    obtain ⟨hs, he⟩ := encode_of_decodeInbound h
    exact ⟨hs, fun _ => he ▸ List.prefix_append [b] rest, nofun⟩
  next b0 b1 op rest =>
    obtain ⟨hs, he⟩ := encode_of_decodePacket h
    exact ⟨hs, fun _ => he ▸ List.prefix_append [b0, b1, op] rest, nofun⟩
  next => cases h

/-- Settles O9: each row has its law. -/
theorem decodeInvertsEncode : Obligations.DecodeInvertsEncode := Laws.DecodesBack.of_instr

/-- Settles O11: six of the words are the code words of their rows; no device command has byte 0x06, and 0x0F is reserved. -/
theorem wordsOfTheTablesDecode : Obligations.WordsOfTheTablesDecode :=
  ⟨decodeInvertsEncode (.select 0x02) [], decodeInvertsEncode .fwUpdate [], decodeInvertsEncode .devReadDevice [],
    decodeInvertsEncode .devReady [], decodeInvertsEncode .fuReqPart2 [], decodeInvertsEncode .fuRepPart2 [], rfl,
    decodeHost_of_reserved (by decide) 0x00⟩

end Sys2Proof.Machine
end

section
/-! Host commands that end in their first step with ILLEGAL_COMMAND, and the transmission of the device bytes. -/

namespace Sys2Proof.Machine

/-! ## Host commands refused in their first step (30_encoding.md R93) -/

section
variable {s : State} {op : Byte} {k : Nat} {p : Point}

theorem not_isUpdate_of_busy (h : s.seq = .busy op k p) (hop : op ≠ 0x20) : s.seq.isUpdate = false := by
  rw [h, isUpdate_busy]; exact beq_false_of_ne hop

theorem edidChecksums_of_illegal {nblk : Byte} (h1 : nblk ≠ 1) (h2 : nblk ≠ 2) :
    edidChecksums nblk s = raise .illegalCommand .badArg s := if_neg (not_or.2 ⟨h1, h2⟩)

theorem selectStart_of_illegal {position : Byte} (h : 4 < position.toNat) :
    selectStart position s = raise .illegalCommand .badArg s := if_pos h

theorem fuEncode_of_badLength (h : s.reg.fuLen.toNat < 3 ∨ 255 < s.reg.fuLen.toNat) (opcode : Byte) :
    fuEncode opcode s = raise .illegalCommand .badLength s := if_pos h

theorem fuDecode_of_badLength (h : s.reg.fuLen.toNat < 4 ∨ 256 < s.reg.fuLen.toNat) (request : Byte) :
    fuDecode request s = raise .illegalCommand .badLength s := if_pos h

/-- At the start of an operation the engine runs the row of its code. -/
theorem engineStep_start (h : s.seq = .busy op k .start) {i : Instr} (hd : decodeHost op s.int.oparg = .ok i) :
    engineStep s = exec i s := engineStep_of_decode (fetch_own h rfl) hd

theorem engineStep_edidChecksums (h : s.seq = .busy 0x01 k .start) :
    engineStep s = .next (edidChecksums s.int.oparg s) := by
  rw [engineStep_start (i := .edidChecksums s.int.oparg) h rfl]
  simp only [exec, execEdidChecksums, h]

theorem engineStep_select (h : s.seq = .busy 0x10 k .start) : engineStep s = .next (selectStart s.int.oparg s) := by
  rw [engineStep_start (i := .select s.int.oparg) h rfl]
  simp only [exec, execSelect, h]

theorem engineStep_fuEncode (h : s.seq = .busy 0x04 k .start) : engineStep s = .next (fuEncode s.int.oparg s) := by
  rw [engineStep_start (i := .fuEncode s.int.oparg) h rfl]
  simp only [exec, execFuEncode, h]

theorem engineStep_fuDecode (h : s.seq = .busy 0x05 k .start) : engineStep s = .next (fuDecode s.int.oparg s) := by
  rw [engineStep_start (i := .fuDecode s.int.oparg) h rfl]
  simp only [exec, execFuDecode, h]

theorem engineStep_reserved (h : s.seq = .busy op k .start) (hop : ReservedCode op) :
    engineStep s = .next (raise .illegalCommand .badCmd s) :=
  engineStep_of_reserved (fetch_own h rfl) (decodeHost_of_reserved hop _)

/-- A command that raises in its first step ends there (60_exceptions.md R266): only FW_UPDATE has a teardown. -/
theorem engineStep_ends_of_raise (h : s.seq = .busy op k p) (hop : op ≠ 0x20) {r : ResultCode} {d : DetailCode} {t : State}
    (hstep : engineStep s = .next t) (hraise : t = raise r d s) : engineStep s = .next (finish r d s) := by
  rw [hstep, hraise, raise_of_not_update s r d (not_isUpdate_of_busy h hop)]

end

/-- Settles O12: a reserved code raises where it is decoded, an illegal operand or length in the command's own first step. -/
theorem reservedCodesAndIllegalOperandsEndAtOnce : Obligations.ReservedCodesAndIllegalOperandsEndAtOnce := by
  intro c k s h ends
  refine ⟨fun hc => ⟨?reserved, fun s0 hb => hostWrite_of_not_busy hb (by decide)⟩, fun hc h1 h2 => ?checksums,
    fun hc hx => ?select, fun hc hlen => ?encode, fun hc hlen => ?decode⟩
  case reserved =>
    have hne : c ≠ 0x20 := by rintro rfl; exact absurd hc (by decide)
    exact engineStep_ends_of_raise h hne (engineStep_reserved h hc) rfl
  all_goals subst hc
  case checksums =>
    exact engineStep_ends_of_raise h (by decide) (engineStep_edidChecksums h) (edidChecksums_of_illegal h1 h2)
  case select => exact engineStep_ends_of_raise h (by decide) (engineStep_select h) (selectStart_of_illegal hx)
  case encode => exact engineStep_ends_of_raise h (by decide) (engineStep_fuEncode h) (fuEncode_of_badLength hlen _)
  case decode => exact engineStep_ends_of_raise h (by decide) (engineStep_fuDecode h) (fuDecode_of_badLength hlen _)

/-! ## Device bytes (30_encoding.md R94, R95) -/

/-- Where an operation that stands at a transmission of a device byte goes on. -/
def afterDeviceByte (op : Byte) : Point → Option Point
  | .send => some (afterSend op)
  | .sendNext => some .nextSettle
  | _ => none

section
variable {s : State} {op : Byte} {k : Nat} {p next : Point}

theorem sendDeviceByte_of_busy (h : s.seq = .busy op k p) (hp : afterDeviceByte op p = some next) (b : Byte) :
    sendDeviceByte b s = .next (transmit [b] next s) := by
  cases p with
  | send | sendNext => cases hp; simp only [sendDeviceByte, h]
  | _ => cases hp

/-- Outside FW_UPDATE a write that fails is followed by the ending step (20_memory.md R72; log 1). -/
theorem transmit_ioerr_of_not_update (h : s.seq = .busy op k p) (hop : op ≠ 0x20) (ha : s.answer.fails = true) (bs : Bytes)
    (next : Point) :
    transmit bs next s = { s with
      link.tl := s.link.tl ++ bs.take s.answer.count, link.history := s.link.history ++ [.tx bs false]
      env := s.drawn.env, seq := .busy op (k + 1) (.ending .writeError .linkWrite) } := by
  rw [transmit_ioerr h ha, raiseNext_of_not_update _ _ _ (not_isUpdate_of_busy rfl hop)]; rfl

end

/-- The rows of R95: the instruction, its byte, the operation that sends it, the place of the transmission and the next one. -/
def deviceRows : List (Instr × Byte × Byte × Point × Point) :=
  [(.devSelDefault, 0x01, 0x10, .send, .settle), (.devSel1, 0x02, 0x10, .send, .settle),
    (.devSel2, 0x03, 0x10, .send, .settle), (.devSel3, 0x04, 0x10, .send, .settle),
    (.devNextBlock, 0x05, 0x14, .sendNext, .nextSettle), (.devReadDisplay, 0x07, 0x14, .send, .pollSleep 0 .readBlock0),
    (.devCecOn, 0x08, 0x11, .send, .settle), (.devCecOff, 0x09, 0x12, .send, .settle),
    (.devWrite, 0x0A, 0x15, .send, .pollSleep 0 .writeBlock0), (.devIdent, 0x0B, 0x13, .send, .settle),
    (.devReadDevice, 0x0C, 0x14, .send, .pollSleep 0 .readBlock0)]

theorem deviceRows_sound {i : Instr} {b op : Byte} {p next : Point} (h : (i, b, op, p, next) ∈ deviceRows) :
    decodeDevice b = .ok i ∧ op ≠ 0x20 ∧ afterDeviceByte op p = some next := by
  unfold deviceRows at h
  iterate 11
    obtain h | h := List.mem_cons.1 h
    · cases h; exact ⟨rfl, by decide, rfl⟩
  cases h

/-- Settles O37: the row's byte decodes to the row, and what sends it is `LinkWrite` at its call site. -/
theorem deviceBytesAreSentByOneWrite : Obligations.DeviceBytesAreSentByOneWrite := by
  intro i b op p next k s hrow h
  obtain ⟨hdecode, hop, hnext⟩ := deviceRows_sound hrow
  have hexec : exec i s = .next (transmit [b] next s) :=
    (exec_of_decodeDevice hdecode s).trans (sendDeviceByte_of_busy h hnext b)
  exact ⟨fun ha => hexec.trans (congrArg _ (transmit_ok h ha [b] next)),
    fun ha => hexec.trans (congrArg _ (transmit_ioerr_of_not_update h hop ha [b] next))⟩

end Sys2Proof.Machine
end

section
/-! The EDID model: the block sum beside its stored checksum byte, the evaluation of one or two blocks as the end of either
operation, and what one changed byte does to a block's sum (40_edid_model.md). -/

namespace Sys2Proof.Machine

/-! ## Sums and checksum bytes (00_scope.md R12; 42_fu_framer.md R190) -/

@[simp] theorem byteSum_cons (v : Byte) (bs : Bytes) : byteSum (v :: bs) = v.toNat + byteSum bs := by simp [byteSum]

theorem toNat_fuCk (bs : Bytes) : (fuCk bs).toNat = (256 - byteSum bs % 256) % 256 := by
  rw [fuCk, BitVec.toNat_ofNat]; exact Nat.mod_mod _ _

/-- The checksum is the one last byte that makes the sum 0 mod 256. -/
theorem byteSum_concat_mod_eq_zero_iff (bs : Bytes) (v : Byte) : byteSum (bs ++ [v]) % 256 = 0 ↔ v = fuCk bs := by
  have hv := v.isLt
  have hsum : byteSum (bs ++ [v]) = byteSum bs + v.toNat := by simp [byteSum]
  rw [hsum, ← BitVec.toNat_inj, toNat_fuCk]
  omega

/-- A replaced byte changes the sum by the difference of the two bytes. -/
theorem byteSum_set (bs : Bytes) {i : Nat} (hi : i < bs.length) (v : Byte) :
    byteSum (bs.set i v) + bs[i].toNat = byteSum bs + v.toNat := by
  induction bs generalizing i with
  | nil => cases hi
  | cons w t ih =>
    cases i with
    | zero => simp only [List.set_cons_zero, List.getElem_cons_zero, byteSum_cons]; omega
    | succ i =>
      have := ih (Nat.lt_of_succ_lt_succ hi)
      simp only [List.set_cons_succ, List.getElem_cons_succ, byteSum_cons]; omega

/-- Two bytes never differ by a non-zero multiple of 256 (R135). -/
theorem byteSum_set_mod_ne_zero {bs : Bytes} {i : Nat} (hi : i < bs.length) {v : Byte} (hsum : byteSum bs % 256 = 0)
    (hv : v ≠ bs[i]) : byteSum (bs.set i v) % 256 ≠ 0 := by
  have hchange := byteSum_set bs hi v
  have hne : v.toNat ≠ bs[i].toNat := fun h => hv (BitVec.eq_of_toNat_eq h)
  have := v.isLt
  have := bs[i].isLt
  omega

/-- A byte written inside a stretch of a buffer replaces that byte of the stretch. -/
theorem bytes_setByte (m : Buffers) {b : Buf} {a i n : Nat} (v : Byte) (h : a + i < bufSize b) :
    (m.setByte b (a + i) v).bytes b a n = (m.bytes b a n).set i v := by
  refine List.ext_getElem (by simp) fun j _ _ => ?_
  rw [getElem_bytes, List.getElem_set, getElem_bytes]
  split
  case isTrue hij => subst hij; exact byteAt_setByte_same m v h
  case isFalse hij => exact byteAt_setByte_other m v (.inr (by omega))

/-! ## Blocks and the mask (R130, R132) -/

section
variable (s : State)

theorem blockFails_iff (b : Nat) : blockFails s b = true ↔ byteSum (edidBlock s b) % 256 ≠ 0 := by
  simp [blockFails, edidSumOk]

/-- A block is its first 127 bytes and its stored checksum byte. -/
theorem edidBlock_eq_concat (b : Nat) : edidBlock s b = (edidBlock s b).take 127 ++ [foundByte s b] := by
  have hlen : (edidBlock s b).length = 128 := length_bytes ..
  have hlast : (edidBlock s b)[127] = foundByte s b := getElem_bytes ..
  rw [← hlast, List.take_append_getElem, List.take_of_length_le hlen.le]

/-- A block fails exactly when its stored byte is not the expected one. -/
theorem blockFails_iff_found_ne_expected (b : Nat) : blockFails s b = true ↔ foundByte s b ≠ expectedByte s b := by
  rw [blockFails_iff, edidBlock_eq_concat]
  exact not_congr (byteSum_concat_mod_eq_zero_iff _ _)

theorem getLsbD_ckMask_zero (n : Nat) : (ckMask n s).getLsbD 0 = true ↔ 0 < n ∧ blockFails s 0 = true := by
  rw [ckMask, BitVec.getLsbD_append, if_pos (by decide), BitVec.getLsbD_ofBool]
  simp

theorem getLsbD_ckMask_one (n : Nat) : (ckMask n s).getLsbD 1 = true ↔ 1 < n ∧ blockFails s 1 = true := by
  rw [ckMask, BitVec.getLsbD_append, if_neg (by decide), BitVec.getLsbD_ofBool]
  simp

/-- Bit `b` of the mask of both blocks. -/
theorem getLsbD_ckMask_two {b : Nat} (hb : b < 2) : (ckMask 2 s).getLsbD b = true ↔ blockFails s b = true := by
  match b, hb with
  | 0, _ => exact (getLsbD_ckMask_zero s 2).trans (and_iff_right (by decide))
  | 1, _ => exact (getLsbD_ckMask_one s 2).trans (and_iff_right (by decide))

end

/-- A block with one byte replaced. -/
theorem edidBlock_setByte (s : State) {b i : Nat} (v : Byte) (hb : b < 2) (hi : i < 128) :
    edidBlock { s with buf := s.buf.setByte .edid (128 * b + i) v } b = (edidBlock s b).set i v := by
  have hin : 128 * b + i < bufSize .edid := show _ < 256 by omega
  exact bytes_setByte s.buf v hin

/-! ## The end of an evaluation (R131, R133) -/

/-- Both operations end with the evaluation of `n` blocks recorded and its outcome reported. -/
def evaluated (n : Nat) (s : State) : State :=
  if ckMask n s = 0 then finish .ok .none (ckEval n s) else finish .invalidData .checksumMismatch (ckEval n s)

theorem evaluated_eq (n : Nat) (s : State) :
    evaluated n s = { ckEval n s with
      reg.result := if ckMask n s = 0 then 0x00 else 0x10
      reg.detail := if ckMask n s = 0 then 0x00 else 0x02
      reg.busy := false, reg.done := true, seq := .idle } := by
  unfold evaluated; split <;> rfl

@[simp] theorem evaluated_ckmask (n : Nat) (s : State) : (evaluated n s).reg.ckmask = ckMask n s := by rw [evaluated_eq]; rfl

/-- Everything an evaluation writes; `two` says that the count is two. -/
theorem evaluated_spec {n : Nat} (s : State) {two : Prop} [Decidable two] (h0 : 0 < n) (h1 : 1 < n ↔ two) :
    ((evaluated n s).reg.ckmask.getLsbD 0 = true ↔ byteSum (edidBlock s 0) % 256 ≠ 0) ∧
    ((evaluated n s).reg.ckmask.getLsbD 1 = true ↔ two ∧ byteSum (edidBlock s 1) % 256 ≠ 0) ∧
    evaluated n s = { s with
      reg.ckmask := (evaluated n s).reg.ckmask
      reg.found0 := foundByte s 0
      reg.exp0 := expectedByte s 0
      reg.found1 := if two then foundByte s 1 else 0x00
      reg.exp1 := if two then expectedByte s 1 else 0x00
      reg.result := if (evaluated n s).reg.ckmask = 0 then 0x00 else 0x10
      reg.detail := if (evaluated n s).reg.ckmask = 0 then 0x00 else 0x02
      reg.busy := false, reg.done := true, seq := .idle } := by
  rw [evaluated_ckmask]
  refine ⟨?bit0, ?bit1, ?state⟩
  case bit0 => rw [getLsbD_ckMask_zero, blockFails_iff, and_iff_right h0]
  case bit1 => rw [getLsbD_ckMask_one, blockFails_iff, h1]
  case state => rw [evaluated_eq]; simp only [ckEval, h0, h1, if_true]

section
variable {s : State} {k : Nat}

theorem edidChecksums_of_legal (h : s.seq = .busy 0x01 k .start) {nblk : Byte} (hn : nblk = 1 ∨ nblk = 2) :
    edidChecksums nblk s = evaluated nblk.toNat s := by
  rw [edidChecksums, if_pos hn, raise_of_not_update _ _ _ (not_isUpdate_of_busy (s := ckEval _ s) h (by decide))]; rfl

theorem exec_edidChecksums (h : s.seq = .busy 0x01 k .start) (nblk : Byte) :
    exec (.edidChecksums nblk) s = .next (edidChecksums nblk s) := by simp only [exec, execEdidChecksums, h]

theorem exec_edidIsvalid (h : s.seq = .busy 0x02 k .start) : exec .edidIsvalid s = .next (edidIsvalid s) := by
  simp only [exec, execEdidIsvalid, h]

/-- Two or more extensions end the validity check before any sum (R134). -/
theorem edidIsvalid_of_tooMany (h : s.seq = .busy 0x02 k .start) (hext : 2 ≤ extCount s) :
    edidIsvalid s = finish .invalidData .tooManyExtensions
      { s with reg.ckmask := 0, reg.found0 := 0, reg.exp0 := 0, reg.found1 := 0, reg.exp1 := 0 } := by
  have hmany : extCount s + 1 > Config.edidMaxBlocks := Nat.succ_lt_succ hext
  have hres : validResult s = some .tooManyExtensions := if_pos hmany
  simp only [edidIsvalid, hres]
  rw [raise_of_not_update _ _ _ (not_isUpdate_of_busy ((validEval_seq s).trans h) (by decide)), validEval, if_pos hmany]

/-- With at most one extension the validity check is the evaluation of `1 + EDID[0x7E]` blocks (R134). -/
theorem edidIsvalid_of_few (h : s.seq = .busy 0x02 k .start) (hext : extCount s ≤ 1) :
    edidIsvalid s = evaluated (1 + extCount s) s := by
  have hfew : ¬ extCount s + 1 > Config.edidMaxBlocks := Nat.not_lt.2 (Nat.succ_le_succ hext)
  have heval : validEval s = ckEval (1 + extCount s) s := if_neg hfew
  by_cases hmask : ckMask (1 + extCount s) s = 0
  · have hres : validResult s = none := by rw [validResult, if_neg hfew, if_pos hmask]
    simp only [edidIsvalid, hres, heval, evaluated, if_pos hmask]
  · have hres : validResult s = some .checksumMismatch := by rw [validResult, if_neg hfew, if_neg hmask]
    simp only [edidIsvalid, hres, heval, evaluated, if_neg hmask]
    exact raise_of_not_update _ _ _ (not_isUpdate_of_busy h (by decide))

end

/-! ## The statements -/

/-- Settles O20: a legal operand is the evaluation of its count, an illegal one the abort. -/
theorem edidChecksumsEvaluatesEveryBlock : Obligations.EdidChecksumsEvaluatesEveryBlock := by
  intro nblk k s h blk bad expected
  refine ⟨fun b => ?bad, fun hn => ?legal, fun h1 h2 => ?illegal⟩
  case bad => exact (blockFails_iff s b).symm.trans (blockFails_iff_found_ne_expected s b)
  case legal =>
    have hpos : 0 < nblk.toNat := by obtain rfl | rfl := hn <;> decide
    have htwo : 1 < nblk.toNat ↔ nblk = 2 := by obtain rfl | rfl := hn <;> decide
    exact ⟨_, (exec_edidChecksums h nblk).trans (congrArg _ (edidChecksums_of_legal h hn)), evaluated_spec s hpos htwo⟩
  case illegal =>
    rw [exec_edidChecksums h, edidChecksums_of_illegal h1 h2, raise_of_not_update _ _ _ (not_isUpdate_of_busy h (by decide))]
    rfl

/-- Settles O21: the extension count decides between the early end and the evaluation. -/
theorem edidIsvalidChecksCountThenSums : Obligations.EdidIsvalidChecksCountThenSums := by
  intro k s h ext blk bad expected
  refine ⟨fun hmany => ?many, fun hfew => ?few⟩
  case many => exact (exec_edidIsvalid h).trans (congrArg _ (edidIsvalid_of_tooMany h hmany))
  case few =>
    have htwo : 1 < 1 + ext ↔ ext = 1 := by omega
    exact ⟨_, (exec_edidIsvalid h).trans (congrArg _ (edidIsvalid_of_few h hfew)), evaluated_spec s (by omega) htwo⟩

/-- Settles O22: the corrupted block is the block with one byte replaced, whose sum is no longer 0 mod 256. -/
theorem oneCorruptedByteFailsItsBlock : Obligations.OneCorruptedByteFailsItsBlock := by
  intro s b i v hb hi hsum hv
  rw [getLsbD_ckMask_two _ hb, blockFails_iff, edidBlock_setByte s v hb hi]
  have hlen : i < (edidBlock s b).length := (length_bytes ..).symm ▸ hi
  have hold : (edidBlock s b)[i] = s.byteAt .edid (128 * b + i) := getElem_bytes ..
  exact byteSum_set_mod_ne_zero hlen hsum (hold ▸ hv)

end Sys2Proof.Machine
end

section
/-! The steps that the device commands perform between their device bytes and polls, place by place, and the polls' own step
(41_device_commands.md). -/

namespace Sys2Proof.Machine

/-! ## Shared steps (41_device_commands.md R160; 20_memory.md R74, R79) -/

section
variable {s : State} {op : Byte} {k : Nat} {p : Point}

theorem goto_of_busy (h : s.seq = .busy op k p) (q : Point) : s.goto q = { s with seq := .busy op k q } := by
  rw [State.goto, h, seqGoto_busy]

theorem sleepThen_of_busy (h : s.seq = .busy op k p) (ms : Nat) (q : Point) :
    sleepThen ms q s = { s with link.history := s.link.history ++ [.sleep ms], seq := .busy op (k + 1) q } := by
  rw [sleepThen, sleep, record_of_busy h]; rfl

theorem ifAttached_of_attached (h : s.seq = .busy op k p) (ha : s.link.attached = true) (q : Point) :
    ifAttached (·.goto q) s = { s with seq := .busy op k q } := (if_pos ha).trans (goto_of_busy h q)

theorem ifAttached_of_detached (h : s.seq = .busy op k p) (hop : op ≠ 0x20) (ha : s.link.attached = false)
    (f : State → State) : ifAttached f s = finish .deviceNotAttached .none s :=
  (if_neg (Bool.eq_false_iff.1 ha)).trans (raise_of_not_update s _ _ (not_isUpdate_of_busy h hop))

/-- Outside FW_UPDATE a read that fails is followed by the ending step (20_memory.md R74; log 1). -/
theorem receiveBytes_ioerr_of_not_update (h : s.seq = .busy op k p) (hop : op ≠ 0x20) (ha : s.answer.fails = true) (n : Nat)
    (next : Bytes → Point) :
    receiveBytes n next s = { s with
      link.rq := s.link.rq.drop s.answer.count, link.history := s.link.history ++ [.rxn n none], env := s.drawn.env
      seq := .busy op (k + 1) (.ending .readError .linkRead) } := by
  rw [receiveBytes_ioerr h ha, raiseNext_of_not_update _ _ _ (not_isUpdate_of_busy rfl hop)]; rfl

end

/-! ## Places that several commands share -/

/-- The operation codes of the device commands (30_encoding.md R91). -/
def deviceOps : List Byte := [0x10, 0x11, 0x12, 0x13, 0x14, 0x15]

/-- Where the operations that settle after their device byte go on (41_device_commands.md R152 to R155). -/
def afterSettle (op : Byte) : Point :=
  if op = 0x10 then .setSel else if op = 0x13 then .receive else .ending .ok .none

theorem ne_update_of_mem_deviceOps {op : Byte} (hop : op ∈ deviceOps) : op ≠ 0x20 := by
  rintro rfl; exact absurd hop (by decide)

section
variable {s : State} {op x : Byte} {k : Nat} {i : Instr}

theorem decodeHost_of_mem_deviceOps (hop : op ∈ deviceOps) (x : Byte) : ∃ i, decodeHost op x = .ok i := by
  simp only [deviceOps, List.mem_cons, List.not_mem_nil, or_false] at hop
  obtain rfl | rfl | rfl | rfl | rfl | rfl := hop <;> exact ⟨_, rfl⟩

/-- Every device command has the same ending step (00_scope.md R15). -/
theorem exec_device_ending (hop : op ∈ deviceOps) (hd : decodeHost op x = .ok i) {r : ResultCode} {d : DetailCode}
    (h : s.seq = .busy op k (.ending r d)) : exec i s = .next (finish r d s) := by
  simp only [deviceOps, List.mem_cons, List.not_mem_nil, or_false] at hop
  obtain rfl | rfl | rfl | rfl | rfl | rfl := hop <;> cases hd <;>
    simp only [exec, execSelect, execCecConnect, execCecDisconnect, cecStep, execIdentify, execReadEdid, execWriteEdid, h]

/-- Four of them start with the attachment check alone (R153 to R156). -/
theorem exec_device_start (hop : op = 0x11 ∨ op = 0x12 ∨ op = 0x13 ∨ op = 0x14) (hd : decodeHost op x = .ok i)
    (h : s.seq = .busy op k .start) : exec i s = .next (ifAttached (·.goto .send) s) := by
  obtain rfl | rfl | rfl | rfl := hop <;> cases hd <;>
    simp only [exec, execCecConnect, execCecDisconnect, cecStep, execIdentify, execReadEdid, h]

theorem exec_settle (hop : op = 0x10 ∨ op = 0x11 ∨ op = 0x12 ∨ op = 0x13) (hd : decodeHost op x = .ok i)
    (h : s.seq = .busy op k .settle) :
    exec i s = .next { s with
      link.history := s.link.history ++ [.sleep 1000], seq := .busy op (k + 1) (afterSettle op) } := by
  rw [← sleepThen_of_busy h]
  obtain rfl | rfl | rfl | rfl := hop <;> cases hd <;>
    simp only [exec, execSelect, execCecConnect, execCecDisconnect, cecStep, execIdentify, h] <;> rfl

theorem exec_pollSleep (hop : op = 0x14 ∨ op = 0x15) (hd : decodeHost op x = .ok i) {failed : Nat} {aft : AfterPoll}
    (h : s.seq = .busy op k (.pollSleep failed aft)) :
    exec i s = .next { s with
      link.history := s.link.history ++ [.sleep 1000], seq := .busy op (k + 1) (.pollRead failed aft) } := by
  rw [← sleepThen_of_busy h]
  obtain rfl | rfl := hop <;> cases hd <;> simp only [exec, execReadEdid, execWriteEdid, h]

end

/-! ## SELECT (R152) -/

section
variable {s : State} {k : Nat} {position : Byte}

theorem exec_select_start (h : s.seq = .busy 0x10 k .start) (position : Byte) :
    exec (.select position) s = .next (selectStart position s) := by simp only [exec, execSelect, h]

theorem exec_select_setSel (h : s.seq = .busy 0x10 k .setSel) (position : Byte) :
    exec (.select position) s = .next (finish .ok .none { s with reg.sel := BitVec.ofNat 3 position.toNat }) := by
  simp only [exec, execSelect, h, selectEnd, BitVec.ofNat_toNat]

theorem selectStart_ends_of_illegal (h : s.seq = .busy 0x10 k .start) (hp : 4 < position.toNat) :
    selectStart position s = finish .illegalCommand .badArg s :=
  (selectStart_of_illegal hp).trans (raise_of_not_update s _ _ (not_isUpdate_of_busy h (by decide)))

theorem selectStart_display (s : State) : selectStart 4 s = finish .ok .none { s with reg.sel := 4 } := rfl

/-- Any other position needs the device. -/
theorem selectStart_of_position (hp : position.toNat ≤ 3) : selectStart position s = ifAttached (·.goto .send) s := by
  have hdisplay : position ≠ 4 := by rintro rfl; exact absurd hp (by decide)
  rw [selectStart, if_neg (by omega), if_neg hdisplay]

end

/-- Settles O27: the first step goes by the operand, the others are its places' own. -/
theorem selectStepsComplete : Obligations.SelectStepsComplete := by
  intro p k s ends
  refine ⟨fun h => ⟨fun hp => ?illegal, fun hp => ?display, fun hp ha => ?detached, fun hp ha => ?attached⟩,
    exec_settle (x := p) (.inl rfl) rfl, fun h _ => exec_select_setSel h p,
    fun r d h => exec_device_ending (op := 0x10) (x := p) (by decide) rfl h⟩
  all_goals rw [exec_select_start h]
  case illegal => rw [selectStart_ends_of_illegal h hp]; rfl
  case display => subst hp; rfl
  case detached => rw [selectStart_of_position hp, ifAttached_of_detached h (by decide) ha]; rfl
  case attached => rw [selectStart_of_position hp, ifAttached_of_attached h ha]

/-! ## CEC_CONNECT and CEC_DISCONNECT (R153, R154) -/

/-- Settles O29: the two operations share all their steps. -/
theorem cecStepsComplete : Obligations.CecStepsComplete := by
  intro i op k s hrow ends
  have hop : op = 0x11 ∨ op = 0x12 := hrow.imp And.right And.right
  have hd : decodeHost op 0x00 = .ok i := by obtain ⟨rfl, rfl⟩ | ⟨rfl, rfl⟩ := hrow <;> rfl
  have hdevice : op ∈ deviceOps := by obtain rfl | rfl := hop <;> decide
  have hsettle : afterSettle op = .ending .ok .none := by obtain rfl | rfl := hop <;> rfl
  refine ⟨fun h => ⟨fun ha => ?detached, fun ha => ?attached⟩, fun h => ?settle,
    fun r d h => exec_device_ending hdevice hd h⟩
  case detached =>
    rw [exec_device_start (by tauto) hd h, ifAttached_of_detached h (ne_update_of_mem_deviceOps hdevice) ha]; rfl
  case attached => rw [exec_device_start (by tauto) hd h, ifAttached_of_attached h ha]
  case settle => rw [exec_settle (by tauto) hd h, hsettle]

/-! ## IDENTIFY (R155) -/

section
variable {s : State} {k : Nat}

theorem exec_identify_storeId {b : Byte} (h : s.seq = .busy 0x13 k (.storeId b)) :
    exec .identify s = .next (finish .ok .none { s with reg.idbyte := b }) := by
  simp only [exec, execIdentify, h, identifyEnd]

theorem exec_identify_receive_of_empty (h : s.seq = .busy 0x13 k .receive) (hrq : s.link.rq = []) :
    exec .identify s = .next { s with
      link.history := s.link.history ++ [.rxb none], seq := .busy 0x13 (k + 1) (.ending .readError .noReply) } := by
  have hhead : s.link.rq.head? = none := List.head?_eq_none_iff.2 hrq
  have htail : s.link.rq.tail = s.link.rq := by rw [hrq, List.tail_nil]
  simp only [exec, execIdentify, h, identifyRead, hhead]
  rw [linkReadByte_of_busy h, raiseNext_of_not_update _ _ _ (not_isUpdate_of_busy rfl (by decide)), htail, hhead]; rfl

theorem exec_identify_receive_of_cons (h : s.seq = .busy 0x13 k .receive) {b : Byte} {rest : Bytes}
    (hrq : s.link.rq = b :: rest) :
    exec .identify s = .next { s with
      link.rq := rest, link.history := s.link.history ++ [.rxb (some b)], seq := .busy 0x13 (k + 1) (.storeId b) } := by
  have hhead : s.link.rq.head? = some b := by rw [hrq, List.head?_cons]
  have htail : s.link.rq.tail = rest := by rw [hrq, List.tail_cons]
  simp only [exec, execIdentify, h, identifyRead, hhead]
  rw [linkReadByte_of_busy h, htail, hhead]; rfl

end

/-- Settles O31: the read goes by the head of the queue. -/
theorem identifyStepsComplete : Obligations.IdentifyStepsComplete := by
  intro k s ends
  have hd : decodeHost 0x13 0x00 = .ok .identify := rfl
  refine ⟨fun h => ⟨fun ha => ?detached, fun ha => ?attached⟩, exec_settle (by decide) hd,
    fun h => ⟨exec_identify_receive_of_empty h, fun b rest => exec_identify_receive_of_cons h⟩,
    fun b h => exec_identify_storeId h, fun r d h => exec_device_ending (by decide) hd h⟩
  case detached => rw [exec_device_start (by decide) hd h, ifAttached_of_detached h (by decide) ha]; rfl
  case attached => rw [exec_device_start (by decide) hd h, ifAttached_of_attached h ha]

/-! ## The extension count and the validity of the blob (40_edid_model.md R134; 30_encoding.md R102) -/

/-- Where block 1, or else block 0, begins (40_edid_model.md R130). -/
abbrev blockAddr (ext : Bool) : Nat := if ext then 128 else 0

theorem extCount_eq_one_iff (s : State) : extCount s = 1 ↔ s.byteAt .edid 0x7E = 1 := by
  rw [extCount, ← BitVec.toNat_inj]; rfl

theorem edidBlock_eq_bytes (s : State) (ext : Bool) :
    edidBlock s (if ext then 1 else 0) = s.bytes .edid (blockAddr ext) 128 := by cases ext <;> rfl

/-- The evaluation writes registers only. -/
theorem validEval_eq (s : State) : validEval s = { s with reg := (validEval s).reg } := by
  unfold validEval; split <;> rfl

theorem validEval_of_few {s : State} (hext : extCount s ≤ 1) : validEval s = ckEval (1 + extCount s) s :=
  if_neg (Nat.not_lt.2 (Nat.succ_le_succ hext))

theorem validResult_of_few {s : State} (hext : extCount s ≤ 1) :
    validResult s = if ckMask (1 + extCount s) s = 0 then none else some .checksumMismatch :=
  if_neg (Nat.not_lt.2 (Nat.succ_le_succ hext))

theorem validResult_of_many {s : State} (hext : 2 ≤ extCount s) : validResult s = some .tooManyExtensions :=
  if_pos (Nat.succ_lt_succ hext)

/-- With two extensions or more no block is checked. -/
theorem validEval_ckmask_of_many {s : State} (hext : 2 ≤ extCount s) : (validEval s).reg.ckmask = 0 := by
  rw [validEval, if_pos (Nat.succ_lt_succ hext)]

/-! ## READ_EDID (R156, R157) -/

section
variable {s : State} {k : Nat}

theorem exec_readEdid_readBlock {ext : Bool} (h : s.seq = .busy 0x14 k (.readBlock ext)) :
    exec .readEdid s = .next (receiveBytes 128 (.storeBlock ext) s) := by simp only [exec, execReadEdid, h]

theorem exec_readEdid_storeBlock {ext : Bool} {r : Bytes} (h : s.seq = .busy 0x14 k (.storeBlock ext r)) :
    exec .readEdid s = .next (storeBlock ext r s) := by simp only [exec, execReadEdid, h]

theorem exec_readEdid_nextSettle (h : s.seq = .busy 0x14 k .nextSettle) :
    exec .readEdid s = .next { s with
      link.history := s.link.history ++ [.sleep 1000], seq := .busy 0x14 (k + 1) (.readBlock true) } := by
  rw [← sleepThen_of_busy h]
  simp only [exec, execReadEdid, h]

theorem exec_readEdid_check (h : s.seq = .busy 0x14 k .check) : exec .readEdid s = .next (readEdidEnd s) := by
  simp only [exec, execReadEdid, h]

/-- Both blocks lie in EDID_BUF. -/
theorem blockAddr_add_le (ext : Bool) {r : Bytes} (hr : r.length = 128) : blockAddr ext + r.length ≤ bufSize .edid := by
  rw [hr]; cases ext <;> decide

/-- A stored block reads back. -/
theorem bytes_setBytes_block (m : Buffers) (ext : Bool) {r : Bytes} (hr : r.length = 128) :
    (m.setBytes .edid (blockAddr ext) r).bytes .edid (blockAddr ext) 128 = r := by
  have hback := bytes_setBytes_same m r (blockAddr_add_le ext hr)
  rwa [hr] at hback

/-- The extension count that decides on a second block is the one of the block just stored. -/
theorem afterBlock_setBytes (s : State) (ext : Bool) {r : Bytes} (hr : r.length = 128) :
    afterBlock ext (s.setBytes .edid (blockAddr ext) r) =
      if ext = false ∧ r[0x7E]? ≠ some 0 then .sendNext else .check := by
  cases ext with
  | true => simp [afterBlock]
  | false =>
    have hi : 0x7E < r.length := by omega
    have hcount : extCount (s.setBytes .edid (blockAddr false) r) = r[0x7E].toNat :=
      congrArg BitVec.toNat (byteAt_setBytes_same s.buf (a := 0) r hi (blockAddr_add_le false hr))
    have hzero : r[0x7E].toNat = 0 ↔ r[0x7E] = 0 := BitVec.toNat_inj (y := 0)
    simp only [afterBlock, hcount, List.getElem?_eq_getElem hi, Option.some.injEq, ne_eq, hzero]

theorem storeBlock_eq {ext : Bool} {r : Bytes} (h : s.seq = .busy 0x14 k (.storeBlock ext r)) (hr : r.length = 128) :
    storeBlock ext r s = { s with
      buf := s.buf.setBytes .edid (blockAddr ext) r
      seq := .busy 0x14 k (if ext = false ∧ r[0x7E]? ≠ some 0 then .sendNext else .check) } := by
  rw [← afterBlock_setBytes s ext hr]
  exact goto_of_busy (s := s.setBytes .edid (blockAddr ext) r) h _

end

/-- Settles O33: each place's step is the shared operation that stands there; the stored block is a byte-string write. -/
theorem readEdidStepsComplete : Obligations.ReadEdidStepsComplete := by
  intro k s ends
  have hd : decodeHost 0x14 0x00 = .ok .readEdid := rfl
  refine ⟨fun h => ⟨fun ha => ?detached, fun ha => ?attached⟩, fun failed aft h => exec_pollSleep (.inl rfl) hd h,
    fun h => exec_readEdid_nextSettle h, fun ext h => ⟨fun ha hlen => ?read, fun ha hlen => ?holds, fun ha => ?ioerr⟩,
    fun ext r h hr => ?store, fun h => ?check, fun r d h => exec_device_ending (by decide) hd h⟩
  case detached => rw [exec_device_start (by decide) hd h, ifAttached_of_detached h (by decide) ha]; rfl
  case attached => rw [exec_device_start (by decide) hd h, ifAttached_of_attached h ha]
  case read => rw [exec_readEdid_readBlock h, receiveBytes_ok h ha hlen]
  case holds => rw [exec_readEdid_readBlock h, receiveBytes_holds ha hlen]; rfl
  case ioerr => rw [exec_readEdid_readBlock h, receiveBytes_ioerr_of_not_update h (by decide) ha]
  case store =>
    refine ⟨_, (exec_readEdid_storeBlock h).trans (congrArg _ (storeBlock_eq h hr)), bytes_setBytes_block s.buf ext hr,
      fun c x hout => ?_, rfl⟩
    refine byteAt_setBytes_other s.buf r ((not_and_or.1 hout).imp id fun hx => ?_)
    rw [hr]
    simpa only [not_and_or, not_le, not_lt] using hx
  case check =>
    rw [exec_readEdid_check h]
    cases hres : validResult s <;> simp only [readEdidEnd, hres] <;> rfl

/-! ## WRITE_EDID (R158) -/

section
variable {s : State} {k : Nat}

theorem exec_writeEdid_start (h : s.seq = .busy 0x15 k .start) :
    exec .writeEdid s = .next (ifAttached (·.goto .validate) s) := by simp only [exec, execWriteEdid, h]

theorem exec_writeEdid_validate (h : s.seq = .busy 0x15 k .validate) :
    exec .writeEdid s = .next (writeEdidValidate s) := by simp only [exec, execWriteEdid, h]

theorem exec_writeEdid_writeBlock {ext : Bool} (h : s.seq = .busy 0x15 k (.writeBlock ext)) :
    exec .writeEdid s = .next (transmit (s.bytes .edid (blockAddr ext) 128) (afterWrite ext) s) := by
  rw [← edidBlock_eq_bytes]
  simp only [exec, execWriteEdid, h]

theorem writeEdidValidate_of_valid (h : s.seq = .busy 0x15 k .validate) (hv : validResult s = none) :
    writeEdidValidate s = { validEval s with seq := .busy 0x15 k .send } := by
  simp only [writeEdidValidate, hv]
  exact goto_of_busy ((validEval_seq s).trans h) _

theorem writeEdidValidate_of_invalid (h : s.seq = .busy 0x15 k .validate) {d : DetailCode} (hv : validResult s = some d) :
    writeEdidValidate s = finish .invalidData d (validEval s) := by
  simp only [writeEdidValidate, hv]
  exact raise_of_not_update _ _ _ (not_isUpdate_of_busy ((validEval_seq s).trans h) (by decide))

end

/-- Settles O35: the validation goes by `is_valid()`, a block by the device's answer. -/
theorem writeEdidStepsComplete : Obligations.WriteEdidStepsComplete := by
  intro k s ends
  have hd : decodeHost 0x15 0x00 = .ok .writeEdid := rfl
  refine ⟨fun h => ⟨fun ha => ?detached, fun ha => ?attached⟩, fun h => ⟨fun hv => ?valid, fun d hv => ?invalid⟩,
    fun failed aft h => exec_pollSleep (.inr rfl) hd h, fun ext h => ⟨fun ha => ?sent, fun ha => ?ioerr⟩,
    fun r d h => exec_device_ending (by decide) hd h⟩
  case detached => rw [exec_writeEdid_start h, ifAttached_of_detached h (by decide) ha]; rfl
  case attached => rw [exec_writeEdid_start h, ifAttached_of_attached h ha]
  case valid => rw [exec_writeEdid_validate h, writeEdidValidate_of_valid h hv]
  case invalid => rw [exec_writeEdid_validate h, writeEdidValidate_of_invalid h hv]; rfl
  case sent => rw [exec_writeEdid_writeBlock h, transmit_ok h ha]; rfl
  case ioerr => rw [exec_writeEdid_writeBlock h, transmit_ioerr_of_not_update h (by decide) ha]

/-! ## The poll (R150, R151) -/

section
variable {s : State} {op : Byte} {k failed : Nat} {aft : AfterPoll}

theorem exec_devReady (h : s.seq = .busy op k (.pollRead failed aft)) :
    exec .devReady s = .next (pollAttempt failed aft s) := by simp only [exec, execDevReady, h]

/-- Where a read attempt leads outside FW_UPDATE. -/
def afterAttempt (failed : Nat) (aft : AfterPoll) (s : State) : Point :=
  if s.link.rq.head? = some 0x05 then afterReady aft s
  else if failed < 2 then .pollSleep (failed + 1) aft
  else .ending .readError .pollExhausted

theorem afterAttempt_of_ready (hrq : s.link.rq.head? = some 0x05) : afterAttempt failed aft s = afterReady aft s :=
  if_pos hrq

theorem afterAttempt_of_missed (hrq : s.link.rq.head? ≠ some 0x05) (hf : failed < 2) :
    afterAttempt failed aft s = .pollSleep (failed + 1) aft := (if_neg hrq).trans (if_pos hf)

theorem afterAttempt_of_exhausted (hrq : s.link.rq.head? ≠ some 0x05) (hf : 2 ≤ failed) :
    afterAttempt failed aft s = .ending .readError .pollExhausted := (if_neg hrq).trans (if_neg (Nat.not_lt.2 hf))

/-- Whatever it leads to, an attempt reads one byte. -/
theorem pollAttempt_eq (h : s.seq = .busy op k (.pollRead failed aft)) (hop : op ≠ 0x20) :
    pollAttempt failed aft s = { s with
      link.rq := s.link.rq.tail, link.history := s.link.history ++ [.rxb s.link.rq.head?]
      seq := .busy op (k + 1) (afterAttempt failed aft s) } := by
  have hread (q : Point) : (linkReadByte s).goto q = { s with
      link.rq := s.link.rq.tail, link.history := s.link.history ++ [.rxb s.link.rq.head?], seq := .busy op (k + 1) q } := by
    rw [linkReadByte_of_busy h]; rfl
  rw [← hread]
  obtain ⟨hrq, heq⟩ | ⟨hrq, hf, heq⟩ | ⟨hrq, hf, heq⟩ := pollAttempt_cases s failed aft <;> rw [heq]
  · rw [afterAttempt_of_ready hrq]
  · rw [afterAttempt_of_missed hrq (Nat.lt_of_succ_lt_succ hf)]
  · rw [afterAttempt_of_exhausted hrq (Nat.le_of_succ_le_succ hf), raiseNext_of_not_update]
    rw [linkReadByte_seq, isUpdate_tick]
    exact not_isUpdate_of_busy h hop

end

/-- Settles O38: the head of the queue and the attempts failed so far say where the attempt leads. -/
theorem pollAttemptReadsOneByte : Obligations.PollAttemptReadsOneByte := by
  intro op k failed aft s h hop read
  rw [exec_devReady h, pollAttempt_eq h hop]
  refine ⟨fun hrq => ?ready, fun hrq hf => ?missed, fun hrq hf => ?exhausted⟩
  case ready =>
    rw [afterAttempt_of_ready hrq]
    cases aft with
    | wroteBlock0 => simp only [afterReady, extCount_eq_one_iff, read]
    | readBlock0 | writeBlock0 | wroteBlock1 => rfl
  case missed => rw [afterAttempt_of_missed hrq hf]
  case exhausted => rw [afterAttempt_of_exhausted hrq hf]

end Sys2Proof.Machine
end

section
/-! Runs of the device commands with an empty agenda: SELECT, the CEC operations and IDENTIFY from acceptance to their end,
and the poll (41_device_commands.md). -/

namespace Sys2Proof.Machine

/-! ## Runs, one stretch after another -/

/-- Some number of steps leads from `s` to `t`. -/
def Runs (s t : State) : Prop := ∃ n, Host.Core.run core n s = .next t

section
variable {s t u : State} {op b : Byte} {k : Nat} {p : Point} {i : Instr} {r : ResultCode} {d : DetailCode}

theorem Runs.refl (s : State) : Runs s s := ⟨0, run_zero s⟩

theorem Runs.trans (h : Runs s t) (h' : Runs t u) : Runs s u := by
  obtain ⟨m, hm⟩ := h
  obtain ⟨n, hn⟩ := h'
  exact ⟨m + n, (run_add hm).trans hn⟩

theorem Runs.engine_step (hrun : Runs s t) (hagenda : t.env.agenda = []) (hu : engineStep t = .next u) : Runs s u :=
  hrun.trans ⟨1, run_succ ((step_of_empty_agenda hagenda).trans hu)⟩

/-- At a place of its own an operation performs its row's step. -/
theorem Runs.own_step (hrun : Runs s t) (hagenda : t.env.agenda = []) (h : t.seq = .busy op k p) (hp : p.isOwn = true)
    (hd : decodeHost op t.int.oparg = .ok i) (hu : exec i t = .next u) : Runs s u :=
  hrun.engine_step hagenda ((engineStep_of_decode (fetch_own h hp) hd).trans hu)

theorem Runs.ending (hrun : Runs s t) (hagenda : t.env.agenda = []) (hop : op ∈ deviceOps)
    (h : t.seq = .busy op k (.ending r d)) : Runs s (finish r d t) := by
  obtain ⟨i, hd⟩ := decodeHost_of_mem_deviceOps hop t.int.oparg
  exact hrun.own_step hagenda h rfl hd (exec_device_ending hop hd h)

/-- The first step of the operations that start with the attachment check alone (R153 to R156). -/
theorem runs_start (hagenda : s.env.agenda = []) (hop : op = 0x11 ∨ op = 0x12 ∨ op = 0x13 ∨ op = 0x14)
    (h : s.seq = .busy op k .start) : Runs s (ifAttached (·.goto .send) s) := by
  obtain ⟨i, hd⟩ := decodeHost_of_mem_deviceOps (op := op) (by obtain rfl | rfl | rfl | rfl := hop <;> decide) s.int.oparg
  exact (Runs.refl s).own_step hagenda h rfl hd (exec_device_start hop hd h)

/-! ## The device byte (30_encoding.md R94, R95) -/

theorem mem_deviceOps_of_send (hplace : legalAt op s .send = true) : op ∈ deviceOps := by
  obtain ⟨rfl, -⟩ | rfl | rfl | rfl | rfl | rfl := legalAt_send_iff.1 hplace <;> decide

/-- Where an operation stands at its transmission, the engine sends its device byte. -/
theorem engineStep_send (hplace : legalAt op s .send = true) (h : s.seq = .busy op k .send) :
    engineStep s = .next (transmit [deviceByte op s] (afterSend op) s) := by
  obtain ⟨i, hi⟩ := decodeDevice_deviceByte hplace
  rw [engineStep_of_decode (fetch_send h) hi, exec_of_decodeDevice hi, sendDeviceByte_of_busy h rfl]

theorem Runs.send_ok (hrun : Runs s t) (hagenda : t.env.agenda = []) (hplace : legalAt op t .send = true)
    (h : t.seq = .busy op k .send) (hb : deviceByte op t = b) (ha : t.answer.fails = false) :
    Runs s { t with
      link.tl := t.link.tl ++ [b], link.history := t.link.history ++ [.tx [b] true], env := t.drawn.env
      seq := .busy op (k + 1) (afterSend op) } := by
  refine hrun.engine_step hagenda ?_
  rw [engineStep_send hplace h, transmit_ok h ha, hb]

theorem Runs.send_ioerr (hrun : Runs s t) (hagenda : t.env.agenda = []) (hplace : legalAt op t .send = true)
    (h : t.seq = .busy op k .send) (hb : deviceByte op t = b) (ha : t.answer.fails = true) :
    Runs s (finish .writeError .linkWrite { t with
      link.tl := t.link.tl ++ [b].take t.answer.count, link.history := t.link.history ++ [.tx [b] false]
      env := t.drawn.env }) := by
  have hop : op ∈ deviceOps := mem_deviceOps_of_send hplace
  have hsend : engineStep t = .next { t with
      link.tl := t.link.tl ++ [b].take t.answer.count, link.history := t.link.history ++ [.tx [b] false]
      env := t.drawn.env, seq := .busy op (k + 1) (.ending .writeError .linkWrite) } := by
    rw [engineStep_send hplace h, transmit_ioerr_of_not_update h (ne_update_of_mem_deviceOps hop) ha, hb]
  exact (hrun.engine_step hagenda hsend).ending hagenda hop rfl

/-- The byte of SELECT, CEC_CONNECT, CEC_DISCONNECT or IDENTIFY and the sleep after it. -/
theorem Runs.send_settle (hrun : Runs s t) (hagenda : t.env.agenda = [])
    (hop : op = 0x10 ∨ op = 0x11 ∨ op = 0x12 ∨ op = 0x13) (hplace : legalAt op t .send = true)
    (h : t.seq = .busy op k .send) (hb : deviceByte op t = b) (ha : t.answer.fails = false) :
    Runs s { t with
      link.tl := t.link.tl ++ [b], link.history := t.link.history ++ [.tx [b] true, .sleep 1000], env := t.drawn.env
      seq := .busy op (k + 2) (afterSettle op) } := by
  have hsettle : afterSend op = .settle := by obtain rfl | rfl | rfl | rfl := hop <;> rfl
  have hsend := hrun.send_ok hagenda hplace h hb ha
  rw [hsettle] at hsend
  obtain ⟨i, hd⟩ := decodeHost_of_mem_deviceOps (mem_deviceOps_of_send hplace) t.int.oparg
  have hwait := hsend.own_step hagenda rfl rfl hd (exec_settle hop hd rfl)
  simpa only [List.append_assoc, List.cons_append, List.nil_append] using hwait

end

/-! ## SELECT (R152) -/

/-- Settles O28: the operand decides the first step, the device's answer the rest. -/
theorem selectOperationRunsToItsEnd : Obligations.SelectOperationRunsToItsEnd := by
  intro k s h hagenda p ends
  have hstart {t : State} (ht : selectStart p s = t) : Runs s t :=
    (Runs.refl s).engine_step hagenda (ht ▸ engineStep_select h)
  have hattached (hp : p.toNat ≤ 3) (ha : s.link.attached = true) : Runs s { s with seq := .busy 0x10 k .send } :=
    hstart ((selectStart_of_position hp).trans (ifAttached_of_attached h ha .send))
  have hplace (hp : p.toNat ≤ 3) : legalAt 0x10 { s with seq := .busy 0x10 k .send } .send = true :=
    legalAt_send_iff.2 (.inl ⟨rfl, hp⟩)
  refine ⟨fun hp => ?illegal, fun hp => ?display, fun hp ha => ?detached, fun hp ha hf => ?ioerr, fun hp ha hf => ?ok⟩
  case illegal => exact hstart (selectStart_ends_of_illegal h hp)
  case display => exact hstart (hp ▸ selectStart_display s)
  case detached => exact hstart ((selectStart_of_position hp).trans (ifAttached_of_detached h (by decide) ha _))
  case ioerr => exact (hattached hp ha).send_ioerr hagenda (hplace hp) rfl rfl hf
  case ok =>
    have hwait := (hattached hp ha).send_settle hagenda (.inl rfl) (hplace hp) rfl rfl hf
    exact hwait.own_step hagenda rfl rfl rfl (exec_select_setSel rfl p)

/-! ## CEC_CONNECT and CEC_DISCONNECT (R153, R154) -/

/-- Settles O30: after its sleep either operation stands at its ending step. -/
theorem cecOperationsRunToTheirEnd : Obligations.CecOperationsRunToTheirEnd := by
  intro op b k s hrow h hagenda ends
  have hop : op = 0x11 ∨ op = 0x12 := hrow.imp And.left And.left
  have hb (u : State) : deviceByte op u = b := by obtain ⟨rfl, rfl⟩ | ⟨rfl, rfl⟩ := hrow <;> rfl
  have hsettle : afterSettle op = .ending .ok .none := by obtain rfl | rfl := hop <;> rfl
  have hplace (u : State) : legalAt op u .send = true := by obtain rfl | rfl := hop <;> rfl
  have hdevice : op ∈ deviceOps := mem_deviceOps_of_send (hplace s)
  have hstart := runs_start hagenda (by tauto) h
  refine ⟨fun ha => ?detached, fun ha hf => ?ioerr, fun ha hf => ?ok⟩
  case detached => rwa [ifAttached_of_detached h (ne_update_of_mem_deviceOps hdevice) ha] at hstart
  all_goals rw [ifAttached_of_attached h ha] at hstart
  case ioerr => exact hstart.send_ioerr hagenda (hplace _) rfl (hb _) hf
  case ok =>
    have hwait := hstart.send_settle hagenda (by tauto) (hplace _) rfl (hb _) hf
    rw [hsettle] at hwait
    exact hwait.ending hagenda hdevice rfl

/-! ## IDENTIFY (R155) -/

/-- Settles O32: after its sleep the operation reads, and the head of the queue decides. -/
theorem identifyOperationRunsToItsEnd : Obligations.IdentifyOperationRunsToItsEnd := by
  intro k s h hagenda ends
  have hstart := runs_start hagenda (by decide) h
  have hattached (ha : s.link.attached = true) : Runs s { s with seq := .busy 0x13 k .send } := by
    rwa [ifAttached_of_attached h ha] at hstart
  have hwait (ha : s.link.attached = true) (hf : s.answer.fails = false) :=
    (hattached ha).send_settle hagenda (by decide) rfl rfl rfl hf
  refine ⟨fun ha => ?detached, fun ha hf => ?ioerr, fun ha hf hrq => ?empty, fun b rest ha hf hrq => ?byte⟩
  case detached => rwa [ifAttached_of_detached h (by decide) ha] at hstart
  case ioerr => exact (hattached ha).send_ioerr hagenda rfl rfl rfl hf
  case empty =>
    have hread := (hwait ha hf).own_step hagenda rfl rfl rfl (exec_identify_receive_of_empty rfl hrq)
    have hend := hread.ending hagenda (by decide) rfl
    simp only [List.append_assoc, List.cons_append, List.nil_append] at hend
    exact hend
  case byte =>
    have hread := (hwait ha hf).own_step hagenda rfl rfl rfl (exec_identify_receive_of_cons rfl hrq)
    have hend := hread.own_step hagenda rfl rfl rfl (exec_identify_storeId rfl)
    simp only [List.append_assoc, List.cons_append, List.nil_append] at hend
    exact hend

/-! ## The poll (R150, R151) -/

/-- What `m` attempts on the queue `q` add to the history. -/
def pollEvents (q : Bytes) (m : Nat) : List LinkEvent :=
  (List.range m).flatMap fun j => [LinkEvent.sleep 1000, .rxb q[j]?]

theorem pollEvents_succ (q : Bytes) (m : Nat) : pollEvents q (m + 1) = pollEvents q m ++ [.sleep 1000, .rxb q[m]?] := by
  simp only [pollEvents, List.range_succ, List.flatMap_append, List.flatMap_singleton]

/-- The state `s` after `m` attempts that led to the point `q`. -/
def polled (s : State) (op : Byte) (k m : Nat) (q : Point) : State :=
  { s with
    link.rq := s.link.rq.drop m, link.history := s.link.history ++ pollEvents s.link.rq m, seq := .busy op (k + 2 * m) q }

theorem polled_zero {s : State} {op : Byte} {k : Nat} {q : Point} (h : s.seq = .busy op k q) : polled s op k 0 q = s := by
  rw [polled, pollEvents, List.range_zero, List.flatMap_nil, List.append_nil, List.drop_zero, Nat.mul_zero, Nat.add_zero,
    ← h]

theorem polled_rq_head? (s : State) (op : Byte) (k m : Nat) (q : Point) :
    (polled s op k m q).link.rq.head? = s.link.rq[m]? := List.head?_drop

section
variable {s t : State} {op : Byte} {k failed m : Nat} {aft : AfterPoll} {q : Point}

/-- One attempt is a sleep and a read. -/
theorem Runs.attempt (hrun : Runs s t) (hagenda : t.env.agenda = []) (hop : op = 0x14 ∨ op = 0x15)
    (h : t.seq = .busy op k (.pollSleep failed aft)) (hq : afterAttempt failed aft t = q) :
    Runs s { t with
      link.rq := t.link.rq.tail, link.history := t.link.history ++ [.sleep 1000, .rxb t.link.rq.head?]
      seq := .busy op (k + 2) q } := by
  have hdevice : op ∈ deviceOps := by obtain rfl | rfl := hop <;> decide
  obtain ⟨i, hd⟩ := decodeHost_of_mem_deviceOps hdevice t.int.oparg
  have hsleep := hrun.own_step hagenda h rfl hd (exec_pollSleep hop hd h)
  have hread := hsleep.engine_step hagenda ((engineStep_of_decode (i := .devReady) (fetch_pollRead rfl) rfl).trans
    ((exec_devReady rfl).trans (congrArg _ (pollAttempt_eq rfl (ne_update_of_mem_deviceOps hdevice)))))
  subst hq
  simp only [List.append_assoc, List.cons_append, List.nil_append] at hread
  exact hread

/-- Attempt number `m`, counted from 0. -/
theorem Runs.attempt_polled (hrun : Runs s (polled s op k m (.pollSleep m aft))) (hagenda : s.env.agenda = [])
    (hop : op = 0x14 ∨ op = 0x15) (hq : afterAttempt m aft (polled s op k m (.pollSleep m aft)) = q) :
    Runs s (polled s op k (m + 1) q) := by
  have hnext := hrun.attempt hagenda hop rfl hq
  rw [polled_rq_head?] at hnext
  simp only [polled, List.tail_drop, List.append_assoc, ← pollEvents_succ] at hnext
  exact hnext

/-- As long as no READY has come, the next attempt follows. -/
theorem runs_missed_attempts (hagenda : s.env.agenda = []) (hop : op = 0x14 ∨ op = 0x15)
    (h : s.seq = .busy op k (.pollSleep 0 aft)) (hm : m ≤ 2) (hmiss : ∀ i, i < m → s.link.rq[i]? ≠ some 0x05) :
    Runs s (polled s op k m (.pollSleep m aft)) := by
  induction m with
  | zero => rw [polled_zero h]; exact .refl s
  | succ m ih =>
    have hmissed := ih (by omega) fun i hi => hmiss i (by omega)
    refine hmissed.attempt_polled hagenda hop (afterAttempt_of_missed ?_ hm)
    rw [polled_rq_head?]
    exact hmiss m (by omega)

end

/-- Settles O39: after the attempts that miss, one finds READY or is the third. -/
theorem pollMakesAtMostThreeAttempts : Obligations.PollMakesAtMostThreeAttempts := by
  intro op k aft s hop h hagenda events
  refine ⟨fun hmiss => ?exhausted, fun j hj hready hmiss => ?ready⟩
  case exhausted =>
    have htwo := runs_missed_attempts hagenda hop h le_rfl fun i hi => hmiss i (by omega)
    have hthree := htwo.attempt_polled hagenda hop
      (afterAttempt_of_exhausted (by rw [polled_rq_head?]; exact hmiss 2 (by decide)) le_rfl)
    exact hthree.ending (op := op) hagenda (by obtain rfl | rfl := hop <;> decide) rfl
  case ready =>
    have hmissed := runs_missed_attempts hagenda hop h (Nat.le_of_lt_succ hj) hmiss
    exact hmissed.attempt_polled hagenda hop (afterAttempt_of_ready (by rw [polled_rq_head?]; exact hready))

end Sys2Proof.Machine
end

section
/-! READ_EDID and WRITE_EDID from acceptance to their end, with READY and the blocks queued and the device answering ok
(41_device_commands.md R156 to R158). -/

namespace Sys2Proof.Machine

/-! ## Stretches of the two operations -/

theorem drawn_answers {s : State} {a : Answer} {as : List Answer} (h : s.env.answers = a :: as) : s.drawn.env.answers = as :=
  congrArg List.tail h

section
variable {s t : State} {op : Byte} {k : Nat} {aft : AfterPoll} {ext : Bool} {blk rest : Bytes}

/-- A poll that finds READY at once. -/
theorem Runs.poll_ready (hrun : Runs s t) (hagenda : t.env.agenda = []) (hop : op = 0x14 ∨ op = 0x15)
    (h : t.seq = .busy op k (.pollSleep 0 aft)) (hrq : t.link.rq = 0x05 :: rest) :
    Runs s { t with
      link.rq := rest, link.history := t.link.history ++ [.sleep 1000, .rxb (some 0x05)]
      seq := .busy op (k + 2) (afterReady aft t) } := by
  have hread := hrun.attempt hagenda hop h (afterAttempt_of_ready (by rw [hrq, List.head?_cons]))
  rwa [hrq, List.tail_cons, List.head?_cons] at hread

/-- READ_EDID reads a block that is queued, and stores it. -/
theorem Runs.read_block (hrun : Runs s t) (hagenda : t.env.agenda = []) (h : t.seq = .busy 0x14 k (.readBlock ext))
    (ha : t.answer.fails = false) (hlen : blk.length = 128) (hrq : t.link.rq = blk ++ rest) :
    Runs s { t with
      buf := t.buf.setBytes .edid (blockAddr ext) blk
      link.rq := rest, link.history := t.link.history ++ [.rxn 128 (some blk)], env := t.drawn.env
      seq := .busy 0x14 (k + 1) (if ext = false ∧ blk[0x7E]? ≠ some 0 then .sendNext else .check) } := by
  have htake : t.link.rq.take 128 = blk := by rw [hrq, List.take_left' hlen]
  have hdrop : t.link.rq.drop 128 = rest := by rw [hrq, List.drop_left' hlen]
  have hqueued : 128 ≤ t.link.rq.length := by rw [hrq, List.length_append, hlen]; exact Nat.le_add_right _ _
  have hread := hrun.own_step hagenda h rfl rfl
    ((exec_readEdid_readBlock h).trans (congrArg _ (receiveBytes_ok h ha hqueued _)))
  rw [htake, hdrop] at hread
  exact hread.own_step hagenda rfl rfl rfl ((exec_readEdid_storeBlock rfl).trans (congrArg _ (storeBlock_eq rfl hlen)))

/-- READ_EDID asks for the extension block. -/
theorem Runs.send_next (hrun : Runs s t) (hagenda : t.env.agenda = []) (h : t.seq = .busy 0x14 k .sendNext)
    (ha : t.answer.fails = false) :
    Runs s { t with
      link.tl := t.link.tl ++ [0x05], link.history := t.link.history ++ [.tx [0x05] true, .sleep 1000], env := t.drawn.env
      seq := .busy 0x14 (k + 2) (.readBlock true) } := by
  have hexec : exec .devNextBlock t = .next (transmit [0x05] .nextSettle t) := sendDeviceByte_of_busy h rfl _
  rw [transmit_ok h ha] at hexec
  have hsend := hrun.engine_step hagenda ((engineStep_of_decode (fetch_sendNext h) rfl).trans hexec)
  have hwait := hsend.own_step hagenda rfl rfl rfl (exec_readEdid_nextSettle rfl)
  simpa only [List.append_assoc, List.cons_append, List.nil_append] using hwait

/-- WRITE_EDID writes a block, and the poll behind it finds READY. -/
theorem Runs.write_block (hrun : Runs s t) (hagenda : t.env.agenda = []) (h : t.seq = .busy 0x15 k (.writeBlock ext))
    (ha : t.answer.fails = false) (hrq : t.link.rq = 0x05 :: rest) (hblk : t.bytes .edid (blockAddr ext) 128 = blk) :
    Runs s { t with
      link.rq := rest, link.tl := t.link.tl ++ blk
      link.history := t.link.history ++ [.tx blk true, .sleep 1000, .rxb (some 0x05)], env := t.drawn.env
      seq := .busy 0x15 (k + 3) (afterReady (if ext then .wroteBlock1 else .wroteBlock0) t) } := by
  have hsend := hrun.own_step hagenda h rfl rfl ((exec_writeEdid_writeBlock h).trans (congrArg _ (transmit_ok h ha _ _)))
  rw [hblk] at hsend
  have hready := hsend.poll_ready hagenda (.inr rfl) rfl hrq
  simp only [List.append_assoc, List.cons_append, List.nil_append] at hready
  exact hready

end

/-! ## The end of READ_EDID (40_edid_model.md R134) -/

section
variable {s : State}

@[simp] theorem readEdidEnd_buf (s : State) : (readEdidEnd s).buf = s.buf := by unfold readEdidEnd; split <;> simp

/-- A blob with at most one extension is valid when the sums of its blocks are. -/
theorem validResult_of_good {n : Nat} (hcount : extCount s = n) (hn : n ≤ 1) (hmask : ckMask (1 + n) s = 0) :
    validResult s = none := by
  subst hcount
  exact (validResult_of_few hn).trans (if_pos hmask)

/-- Every block that the extension count calls for is good. -/
theorem readEdidEnd_of_good {n : Nat} (hcount : extCount s = n) (hn : n ≤ 1) (hmask : ckMask (1 + n) s = 0) :
    readEdidEnd s = finish .ok .none (ckEval (1 + n) s) := by
  have hres : validResult s = none := validResult_of_good hcount hn hmask
  subst hcount
  simp only [readEdidEnd, hres, validEval_of_few hn]

theorem readEdidEnd_of_bad {n : Nat} (hcount : extCount s = n) (hn : n ≤ 1) (hmask : ckMask (1 + n) s ≠ 0) :
    readEdidEnd s = finish .edidInvalid .checksumMismatch (ckEval (1 + n) s) := by
  subst hcount
  have hres : validResult s = some .checksumMismatch := (validResult_of_few hn).trans (if_neg hmask)
  simp only [readEdidEnd, hres, validEval_of_few hn]

theorem readEdidEnd_of_many (hext : 2 ≤ extCount s) :
    readEdidEnd s = finish .edidInvalid .tooManyExtensions (validEval s) := by
  simp only [readEdidEnd, validResult_of_many hext]

theorem blockFails_eq_false_iff (s : State) (b : Nat) : blockFails s b = false ↔ byteSum (edidBlock s b) % 256 = 0 := by
  rw [← Bool.not_eq_true, blockFails_iff, not_not]

theorem ckMask_one (s : State) : ckMask 1 s = if byteSum (edidBlock s 0) % 256 = 0 then 0 else 1 := by
  simp only [← blockFails_eq_false_iff]
  cases h : blockFails s 0 <;> simp [ckMask, h]

theorem ckMask_two_eq_zero_iff (s : State) :
    ckMask 2 s = 0 ↔ byteSum (edidBlock s 0) % 256 = 0 ∧ byteSum (edidBlock s 1) % 256 = 0 := by
  simp only [← blockFails_eq_false_iff]
  cases h0 : blockFails s 0 <;> cases h1 : blockFails s 1 <;> simp [ckMask, h0, h1]

/-- The extension count is byte 0x7E of block 0 (30_encoding.md R102). -/
theorem extCount_of_block {blk : Bytes} {ext : Byte} (hblk : edidBlock s 0 = blk) (hext : blk[0x7E]? = some ext) :
    extCount s = ext.toNat := by
  subst hblk
  obtain ⟨hi, hget⟩ := List.getElem?_eq_some_iff.1 hext
  rw [← hget]
  exact congrArg BitVec.toNat (getElem_bytes s.buf .edid 0 128 0x7E hi).symm

end

/-! ## READ_EDID (R156, R157) -/

section
variable {s : State} {k : Nat} {b : Byte} {blk0 blk1 rest : Bytes}

/-- From acceptance until block 0 is stored. -/
theorem runs_readEdid_block0 (hagenda : s.env.agenda = []) (h : s.seq = .busy 0x14 k .start)
    (hattached : s.link.attached = true) (hb : deviceByte 0x14 s = b) (h1 : s.answer.fails = false)
    (h2 : s.drawn.answer.fails = false) (hlen : blk0.length = 128)
    (hrq : s.link.rq = 0x05 :: (blk0 ++ rest)) :
    Runs s { s with
      buf := s.buf.setBytes .edid 0 blk0
      link.rq := rest, link.tl := s.link.tl ++ [b]
      link.history := s.link.history ++ [.tx [b] true, .sleep 1000, .rxb (some 0x05), .rxn 128 (some blk0)]
      env := s.drawn.drawn.env
      seq := .busy 0x14 (k + 4) (if blk0[0x7E]? ≠ some 0 then .sendNext else .check) } := by
  have hstart := runs_start hagenda (by decide) h
  rw [ifAttached_of_attached h hattached] at hstart
  have hready := (hstart.send_ok hagenda rfl rfl hb h1).poll_ready hagenda (.inl rfl) rfl hrq
  have hstored := hready.read_block hagenda rfl h2 hlen rfl
  simp only [List.append_assoc, List.cons_append, List.nil_append, true_and] at hstored
  exact hstored

/-- A block without an extension leads straight to the check. -/
theorem runs_readEdid_single (hagenda : s.env.agenda = []) (h : s.seq = .busy 0x14 k .start)
    (hattached : s.link.attached = true) (hb : deviceByte 0x14 s = b) (h1 : s.answer.fails = false)
    (h2 : s.drawn.answer.fails = false) (hlen : blk0.length = 128)
    (hext : blk0[0x7E]? = some 0) (hrq : s.link.rq = 0x05 :: (blk0 ++ rest)) :
    ∃ u, Runs s u ∧ u.env.agenda = [] ∧ u.seq = .busy 0x14 (k + 4) .check ∧ u.buf = s.buf.setBytes .edid 0 blk0 ∧
      u.link = { s.link with
        rq := rest, tl := s.link.tl ++ [b]
        history := s.link.history ++ [.tx [b] true, .sleep 1000, .rxb (some 0x05), .rxn 128 (some blk0)] } := by
  have hblock0 := runs_readEdid_block0 hagenda h hattached hb h1 h2 hlen hrq
  rw [if_neg (not_not.2 hext)] at hblock0
  exact ⟨_, hblock0, hagenda, rfl, rfl, rfl⟩

/-- With an extension the second block is asked for, read and stored first. -/
theorem runs_readEdid_extension (hagenda : s.env.agenda = []) (h : s.seq = .busy 0x14 k .start)
    (hattached : s.link.attached = true) (hb : deviceByte 0x14 s = b) (h1 : s.answer.fails = false)
    (h2 : s.drawn.answer.fails = false) (h3 : s.drawn.drawn.answer.fails = false)
    (h4 : s.drawn.drawn.drawn.answer.fails = false) (hlen0 : blk0.length = 128) (hlen1 : blk1.length = 128)
    (hext : blk0[0x7E]? ≠ some 0) (hrq : s.link.rq = 0x05 :: (blk0 ++ (blk1 ++ rest))) :
    ∃ u, Runs s u ∧ u.env.agenda = [] ∧ u.seq = .busy 0x14 (k + 7) .check ∧
      u.buf = (s.buf.setBytes .edid 0 blk0).setBytes .edid 128 blk1 ∧
      u.link = { s.link with
        rq := rest, tl := s.link.tl ++ [b, 0x05]
        history := s.link.history ++
          [.tx [b] true, .sleep 1000, .rxb (some 0x05), .rxn 128 (some blk0), .tx [0x05] true, .sleep 1000,
            .rxn 128 (some blk1)] } := by
  have hblock0 := runs_readEdid_block0 hagenda h hattached hb h1 h2 hlen0 hrq
  rw [if_pos hext] at hblock0
  have hnext := hblock0.send_next hagenda rfl h3
  have hblock1 := hnext.read_block hagenda rfl h4 hlen1 rfl
  exact ⟨_, hblock1, hagenda, rfl, rfl, by simp only [List.append_assoc, List.cons_append, List.nil_append]⟩

end

/-- Settles O34: the blob is stored when the end is reached, and its validity is the result. -/
theorem readEdidStoresTheQueuedBlock : Obligations.ReadEdidStoresTheQueuedBlock := by
  intro k s blk0 rest as h hagenda hattached hlen0 op ended
  have hb : deviceByte 0x14 s = op := rfl
  refine ⟨fun a1 a2 hext hans h1 h2 hrq => ?single,
    fun blk1 ext a1 a2 a3 a4 hext hne hlen1 hans h1 h2 h3 h4 hrq => ?extension⟩
  case single =>
    rw [← answer_cons s hans] at h1
    rw [← answer_cons _ (drawn_answers hans)] at h2
    obtain ⟨u, hrun, hagenda', hseq, hbuf, hlink⟩ :=
      runs_readEdid_single hagenda h hattached hb h1 h2 hlen0 hext hrq
    obtain ⟨n, hn⟩ := hrun.own_step hagenda' hseq rfl rfl (exec_readEdid_check hseq)
    have hblk0 : u.buf.bytes .edid 0 128 = blk0 := by rw [hbuf]; exact bytes_setBytes_block s.buf false hlen0
    have hcount : extCount u = 0 := extCount_of_block hblk0 hext
    have hmask : ckMask 1 u = if byteSum blk0 % 256 = 0 then 0 else 1 := hblk0 ▸ ckMask_one u
    refine ⟨n, readEdidEnd u, hn, ?block0, fun c x hout => ?others, fun hsum => ?good, fun hsum => ?bad, ?logs⟩
    case block0 => rw [State.bytes, readEdidEnd_buf, hblk0]
    case others =>
      rw [State.byteAt, readEdidEnd_buf, hbuf]
      exact byteAt_setBytes_other s.buf blk0 ((not_and_or.1 hout).imp id fun hx => by omega)
    case good =>
      rw [if_pos hsum] at hmask
      rw [readEdidEnd_of_good hcount (by decide) hmask]
      exact ⟨⟨rfl, rfl, rfl, rfl, rfl⟩, hmask⟩
    case bad =>
      rw [if_neg hsum] at hmask
      rw [readEdidEnd_of_bad hcount (by decide) (hmask.trans_ne (by decide))]
      exact ⟨⟨rfl, rfl, rfl, rfl, rfl⟩, hmask⟩
    case logs => rw [readEdidEnd_link, hlink]; exact ⟨rfl, rfl, rfl⟩
  case extension =>
    have hans2 := drawn_answers hans
    have hans3 := drawn_answers hans2
    have hans4 := drawn_answers hans3
    rw [← answer_cons _ hans] at h1
    rw [← answer_cons _ hans2] at h2
    rw [← answer_cons _ hans3] at h3
    rw [← answer_cons _ hans4] at h4
    have hsome : blk0[0x7E]? ≠ some 0 := by rw [hext]; exact fun h => hne (Option.some.inj h)
    rw [List.append_assoc] at hrq
    obtain ⟨u, hrun, hagenda', hseq, hbuf, hlink⟩ :=
      runs_readEdid_extension hagenda h hattached hb h1 h2 h3 h4 hlen0 hlen1 hsome hrq
    obtain ⟨n, hn⟩ := hrun.own_step hagenda' hseq rfl rfl (exec_readEdid_check hseq)
    have hblk0 : u.buf.bytes .edid 0 128 = blk0 := by
      rw [hbuf, bytes_setBytes_other _ _ (.inr (.inl (by decide)))]; exact bytes_setBytes_block s.buf false hlen0
    have hblk1 : u.buf.bytes .edid 128 128 = blk1 := by rw [hbuf]; exact bytes_setBytes_block _ true hlen1
    have hcount : extCount u = ext.toNat := extCount_of_block hblk0 hext
    have hmask : ckMask 2 u = 0 ↔ byteSum blk0 % 256 = 0 ∧ byteSum blk1 % 256 = 0 := hblk0 ▸ hblk1 ▸ ckMask_two_eq_zero_iff u
    refine ⟨n, readEdidEnd u, hn, ?block0, ?block1, fun c x hout => ?others, fun hone hsum0 hsum1 => ?good,
      fun hone hsum => ?bad, fun hmany => ?many, ?logs⟩
    case block0 => rw [State.bytes, readEdidEnd_buf, hblk0]
    case block1 => rw [State.bytes, readEdidEnd_buf, hblk1]
    case others =>
      rw [State.byteAt, readEdidEnd_buf, hbuf, byteAt_setBytes_other, byteAt_setBytes_other]
      · rfl
      · exact (not_and_or.1 hout).imp id fun hx => by omega
      · exact (not_and_or.1 hout).imp id fun hx => by omega
    case good =>
      have hgood : ckMask 2 u = 0 := hmask.2 ⟨hsum0, hsum1⟩
      subst hone
      rw [readEdidEnd_of_good hcount (by decide) hgood]
      exact ⟨⟨rfl, rfl, rfl, rfl, rfl⟩, hgood⟩
    case bad =>
      subst hone
      rw [readEdidEnd_of_bad hcount (by decide) (mt hmask.1 hsum)]
      refine ⟨⟨rfl, rfl, rfl, rfl, rfl⟩, ?bit0, ?bit1⟩
      case bit0 => exact hblk0 ▸ (getLsbD_ckMask_two u (by decide)).trans (blockFails_iff u 0)
      case bit1 => exact hblk1 ▸ (getLsbD_ckMask_two u (by decide)).trans (blockFails_iff u 1)
    case many =>
      have htwo : 2 ≤ extCount u := by rw [hcount]; bv_omega
      rw [readEdidEnd_of_many htwo]
      exact ⟨⟨rfl, rfl, rfl, rfl, rfl⟩, validEval_ckmask_of_many htwo⟩
    case logs => rw [readEdidEnd_link, hlink]; exact ⟨rfl, rfl, rfl⟩

/-! ## WRITE_EDID (R158) -/

section
variable {s : State} {k : Nat} {rest : Bytes}

/-- From acceptance of a valid blob until block 0 is taken; the registers hold the evaluation. -/
theorem runs_writeEdid_block0 (hagenda : s.env.agenda = []) (h : s.seq = .busy 0x15 k .start)
    (hattached : s.link.attached = true) (hvalid : validResult s = none) (h1 : s.answer.fails = false)
    (h2 : s.drawn.answer.fails = false) (hrq : s.link.rq = 0x05 :: 0x05 :: rest) :
    ∃ g : Regs, Runs s { s with
      reg := g
      link.rq := rest, link.tl := s.link.tl ++ 0x0A :: s.bytes .edid 0 128
      link.history := s.link.history ++
        [.tx [0x0A] true, .sleep 1000, .rxb (some 0x05), .tx (s.bytes .edid 0 128) true, .sleep 1000, .rxb (some 0x05)]
      env := s.drawn.drawn.env
      seq := .busy 0x15 (k + 6) (afterReady .wroteBlock0 s) } := by
  have hstart := (Runs.refl s).own_step hagenda h rfl rfl
    ((exec_writeEdid_start h).trans (congrArg _ (ifAttached_of_attached h hattached _)))
  have hvalidated := hstart.own_step hagenda rfl rfl rfl
    ((exec_writeEdid_validate rfl).trans (congrArg _ (writeEdidValidate_of_valid rfl hvalid)))
  rw [validEval_eq] at hvalidated
  have hready := (hvalidated.send_ok (b := 0x0A) hagenda rfl rfl rfl h1).poll_ready hagenda (.inr rfl) rfl hrq
  have hblock0 := hready.write_block (blk := s.bytes .edid 0 128) hagenda rfl h2 rfl rfl
  simp only [List.append_assoc, List.cons_append, List.nil_append] at hblock0
  exact ⟨_, hblock0⟩

end

/-- Settles O36: a blob with at most one extension is valid by its sums; block 1 follows block 0 where the count is 1. -/
theorem writeEdidSendsOpcodeThenBlock : Obligations.WriteEdidSendsOpcodeThenBlock := by
  intro k s rest as h hagenda hattached blk0 blk1 ended hsum0
  refine ⟨fun a1 a2 hext hans h1 h2 hrq => ?single, fun a1 a2 a3 hext hsum1 hans h1 h2 h3 hrq => ?extension⟩
  case single =>
    rw [← answer_cons _ hans] at h1
    rw [← answer_cons _ (drawn_answers hans)] at h2
    have hcount : extCount s = 0 := congrArg BitVec.toNat hext
    have hvalid : validResult s = none := validResult_of_good hcount (by decide) ((ckMask_one s).trans (if_pos hsum0))
    have hafter : afterReady .wroteBlock0 s = .ending .ok .none := if_neg (by rw [hcount]; decide)
    obtain ⟨g, hblock0⟩ := runs_writeEdid_block0 hagenda h hattached hvalid h1 h2 hrq
    rw [hafter] at hblock0
    obtain ⟨n, hn⟩ := hblock0.ending (op := 0x15) hagenda (by decide) rfl
    exact ⟨n, _, hn, ⟨rfl, rfl, rfl, rfl, rfl, rfl, rfl⟩, rfl, rfl⟩
  case extension =>
    rw [← answer_cons _ hans] at h1
    rw [← answer_cons _ (drawn_answers hans)] at h2
    rw [← answer_cons _ (drawn_answers (drawn_answers hans))] at h3
    have hcount : extCount s = 1 := congrArg BitVec.toNat hext
    have hvalid : validResult s = none :=
      validResult_of_good hcount le_rfl ((ckMask_two_eq_zero_iff s).2 ⟨hsum0, hsum1⟩)
    have hafter : afterReady .wroteBlock0 s = .writeBlock true := if_pos hcount
    obtain ⟨g, hblock0⟩ := runs_writeEdid_block0 hagenda h hattached hvalid h1 h2 hrq
    rw [hafter] at hblock0
    have hblock1 := hblock0.write_block (blk := blk1) hagenda rfl h3 rfl rfl
    obtain ⟨n, hn⟩ := hblock1.ending (op := 0x15) hagenda (by decide) rfl
    refine ⟨n, _, hn, ⟨rfl, rfl, rfl, rfl, rfl, rfl, rfl⟩, ?log, ?history⟩
    case log => exact List.append_assoc ..
    case history => exact List.append_assoc ..

end Sys2Proof.Machine
end

section
/-! The framer: the checksum of a frame, the reply check, the word-sum and the image check, and the three host operations that
are made of them (42_fu_framer.md). -/

namespace Sys2Proof.Machine

/-! ## The checksum of a frame (R190, R192) -/

theorem byteSum_concat (bs : Bytes) (v : Byte) : byteSum (bs ++ [v]) = byteSum bs + v.toNat := by simp [byteSum]

theorem fuCkOk_concat_iff (t : Bytes) (c : Byte) : fuCkOk (t ++ [c]) = true ↔ c = fuCk t := by simp [fuCkOk]

theorem fuCkOk_iff_byteSum {bs : Bytes} (h : bs ≠ []) : fuCkOk bs = true ↔ byteSum bs % 256 = 0 := by
  obtain ⟨t, c, rfl⟩ := (List.eq_nil_or_concat' bs).resolve_left h
  exact (fuCkOk_concat_iff t c).trans (byteSum_concat_mod_eq_zero_iff t c).symm

/-- Settles O13: the byte's value is the formula's, and appending a byte adds its value to the sum. -/
theorem checksumByteMakesTheSumZero : Obligations.ChecksumByteMakesTheSumZero := by
  refine fun bs => ⟨toNat_fuCk bs, fun c => ?_⟩
  rw [← byteSum_concat]
  exact eq_comm.trans (byteSum_concat_mod_eq_zero_iff bs c).symm

/-- Settles O14: a frame is everything before its last byte and that byte. -/
theorem framePassesExactlyWhenItsSumIsZero : Obligations.FramePassesExactlyWhenItsSumIsZero :=
  fun t c => ⟨fuCkOk_concat_iff t c, fuCkOk_iff_byteSum (List.append_ne_nil_of_right_ne_nil t (List.cons_ne_nil c []))⟩

/-! ## The reply check (R199), one equation per outcome -/

section
variable {r : Bytes} {reqop : Byte} {enter : Bool}

theorem magicOk_iff : magicOk r = true ↔ r[0]? = some 0x46 ∧ r[1]? = some 0x55 := by simp [magicOk]

theorem opcodeOk_iff : opcodeOk r reqop = true ↔ r[2]? = some (reqop ^^^ 0x80) := by simp [opcodeOk]

theorem fuReplyCheck_of_bad_magic (hmagic : ¬magicOk r = true) : fuReplyCheck r reqop enter = some (.readError, .badMagic) :=
  if_pos (Bool.eq_false_iff.2 hmagic)

theorem fuReplyCheck_of_bad_checksum (hmagic : magicOk r = true) (hck : ¬fuCkOk r = true) :
    fuReplyCheck r reqop enter = some (.readError, .badChecksum) := by simp [fuReplyCheck, hmagic, hck]

theorem fuReplyCheck_of_bad_opcode (hmagic : magicOk r = true) (hck : fuCkOk r = true) (hop : ¬opcodeOk r reqop = true) :
    fuReplyCheck r reqop enter = if enter then some (.readError, .badOpcode) else some (.writeError, .rejOpcode) := by
  simp [fuReplyCheck, hmagic, hck, hop]

theorem fuReplyCheck_of_passes (hmagic : magicOk r = true) (hck : fuCkOk r = true) (hop : opcodeOk r reqop = true) :
    fuReplyCheck r reqop enter = none := by simp [fuReplyCheck, hmagic, hck, hop]

end

/-- Settles O17: each clause is the outcome of the first check that fails. -/
theorem replyCheckReportsTheFirstFailure : Obligations.ReplyCheckReportsTheFirstFailure := by
  intro r reqop enter
  refine ⟨fun hbad => ?magic, fun h0 h1 => ?rest⟩
  case magic => exact fuReplyCheck_of_bad_magic (mt magicOk_iff.1 hbad)
  case rest =>
    have hmagic : magicOk r = true := magicOk_iff.2 ⟨h0, h1⟩
    exact ⟨fun hck => fuReplyCheck_of_bad_checksum hmagic (Bool.eq_false_iff.1 hck), fun hck =>
      ⟨fun hop => fuReplyCheck_of_bad_opcode hmagic hck (mt opcodeOk_iff.1 hop),
        fun hop => fuReplyCheck_of_passes hmagic hck (opcodeOk_iff.2 hop)⟩⟩

/-! ## Built frames (R191, R193) -/

section
variable (op : Byte) (p : Bytes)

theorem length_fuFrame : (fuFrame op p).length = p.length + 4 := by simp [fuFrame, frameHead]

theorem fuCkOk_fuFrame : fuCkOk (fuFrame op p) = true := (fuCkOk_concat_iff _ _).2 rfl

/-- A request's opcode XOR 0x80 twice is the opcode again (30_encoding.md R98). -/
theorem fuReplyCheck_fuFrame (enter : Bool) : fuReplyCheck (fuFrame op p) (op ^^^ 0x80) enter = none := by
  have hecho : op ^^^ 0x80 ^^^ 0x80 = op := by rw [BitVec.xor_assoc, BitVec.xor_self, BitVec.xor_zero]
  exact fuReplyCheck_of_passes (magicOk_iff.2 ⟨rfl, rfl⟩) (fuCkOk_fuFrame op p) (opcodeOk_iff.2 (congrArg some hecho.symm))

end

/-- Settles O15: the appended byte is the checksum, and the frame's first three bytes are those that the checks read. -/
theorem builtFramesPassTheReplyCheck : Obligations.BuiltFramesPassTheReplyCheck :=
  ⟨fun t => (fuCkOk_concat_iff t _).2 rfl, fun op p enter =>
    ⟨length_fuFrame op p, fuCkOk_fuFrame op p, rfl, fuReplyCheck_fuFrame op p enter⟩⟩

/-! ## Stretches of a buffer (00_scope.md R13) -/

theorem bytes_add (m : Buffers) (b : Buf) (a n k : Nat) : m.bytes b a (n + k) = m.bytes b a n ++ m.bytes b (a + n) k := by
  simp [Buffers.bytes, List.range_add, Nat.add_assoc]

theorem getElem?_bytes_zero (s : State) (b : Buf) {i n : Nat} (hi : i < n) : (s.bytes b 0 n)[i]? = some (s.byteAt b i) := by
  rw [State.bytes, List.getElem?_eq_getElem (by rwa [length_bytes]), getElem_bytes, Nat.zero_add]; rfl

/-! ## The word-sum and the image check (R196, R197) -/

theorem wordTotal_eq_sum {n : Nat} {bs : Bytes} (h : bs.length = 2 * n) :
    wordTotal bs = ((List.range n).map fun j => be16 (bs.getD (2 * j) 0) (bs.getD (2 * j + 1) 0)).sum := by
  induction n generalizing bs with
  | zero => rw [List.length_eq_zero_iff.1 h]; rfl
  | succ n ih =>
    match bs, h with
    | hi :: lo :: t, h =>
      have ht : t.length = 2 * n := by simpa [Nat.mul_succ] using h
      rw [wordTotal, ih ht, List.range_succ_eq_map, List.map_cons, List.map_map, List.sum_cons]
      rfl

/-- The word-sum of a stretch of `n` words in a buffer. -/
theorem wordsum_bytes (s : State) (b : Buf) (n : Nat) :
    wordsum (s.bytes b 0 (2 * n)) =
      ((List.range n).map fun j => be16 (s.byteAt b (2 * j)) (s.byteAt b (2 * j + 1))).sum % 65536 := by
  have hlen : (s.bytes b 0 (2 * n)).length = 2 * n := length_bytes ..
  have hbyte {i : Nat} (hi : i < 2 * n) : (s.bytes b 0 (2 * n)).getD i 0 = s.byteAt b i := by
    rw [List.getD_eq_getElem?_getD, getElem?_bytes_zero s b hi]; rfl
  rw [wordsum, wordTotal_eq_sum hlen]
  refine congrArg (·.sum % 65536) (List.map_congr_left fun j hj => ?_)
  have hlt : j < n := List.mem_range.1 hj
  rw [hbyte (by omega), hbyte (by omega)]

section
variable {s : State}

/-- FW_TAG stands at the head of the image. -/
abbrev TagMatches (s : State) : Prop := s.bytes .fw 0 s.params.fwTag.length = s.params.fwTag

/-- The word stored behind the image's 5440 words is their word-sum. -/
abbrev WordsumMatches (s : State) : Prop :=
  wordsum (s.bytes .fw 0 0x2A80) = be16 (s.byteAt .fw 0x2A80) (s.byteAt .fw 0x2A81)

theorem fwLen_toNat_eq_iff : s.reg.fwLen.toNat = Config.fwImageLen ↔ s.reg.fwLen = 0x2A82 := BitVec.toNat_inj (y := 0x2A82#16)

theorem imageCheck_of_bad_length (hlen : s.reg.fwLen ≠ 0x2A82) : imageCheck s = some .imageLength :=
  if_pos (mt fwLen_toNat_eq_iff.1 hlen)

theorem imageCheck_of_bad_tag (hlen : s.reg.fwLen = 0x2A82) (htag : ¬TagMatches s) : imageCheck s = some .imageTag := by
  rw [imageCheck, if_neg (not_not.2 (fwLen_toNat_eq_iff.2 hlen)), if_pos htag]

theorem imageCheck_of_bad_wordsum (hlen : s.reg.fwLen = 0x2A82) (htag : TagMatches s) (hsum : ¬WordsumMatches s) :
    imageCheck s = some .imageWordsum := by
  rw [imageCheck, if_neg (not_not.2 (fwLen_toNat_eq_iff.2 hlen)), if_neg (not_not.2 htag), if_pos hsum]

theorem imageCheck_of_passes (hlen : s.reg.fwLen = 0x2A82) (htag : TagMatches s) (hsum : WordsumMatches s) :
    imageCheck s = none := by
  rw [imageCheck, if_neg (not_not.2 (fwLen_toNat_eq_iff.2 hlen)), if_neg (not_not.2 htag), if_neg (not_not.2 hsum)]

/-- Past the length and the tag the word-sum alone decides. -/
theorem imageCheck_eq_none_iff (hlen : s.reg.fwLen = 0x2A82) (htag : TagMatches s) :
    imageCheck s = none ↔ WordsumMatches s := by
  refine ⟨fun hnone => by_contra fun hsum => ?_, imageCheck_of_passes hlen htag⟩
  cases hnone.symm.trans (imageCheck_of_bad_wordsum hlen htag hsum)

end

/-- Settles O16: a string of even length is read two bytes at a time, and the image's is a stretch of 5440 words. -/
theorem wordSumAddsBigEndianWords : Obligations.WordSumAddsBigEndianWords := by
  refine ⟨fun bs heven => ?string, fun s hlen htag => ?image⟩
  case string => exact congrArg (· % 65536) (wordTotal_eq_sum (n := bs.length / 2) (by omega))
  case image =>
    exact (imageCheck_eq_none_iff hlen htag).trans (wordsum_bytes s .fw 5440).congr_left

/-! ## FW_VALIDATE (R198) -/

section
variable {s : State} {k : Nat}

/-- Only FW_UPDATE has a teardown (60_exceptions.md R266). -/
theorem raise_eq_finish {op : Byte} {p : Point} (h : s.seq = .busy op k p) (hop : op ≠ 0x20) (r : ResultCode) (d : DetailCode) :
    raise r d s = finish r d s := raise_of_not_update s r d (not_isUpdate_of_busy h hop)

theorem exec_fwValidate (h : s.seq = .busy 0x03 k .start) : exec .fwValidate s = .next (fwValidate s) := by
  simp only [exec, execFwValidate, h]

theorem exec_fwValidate_of_check_some (h : s.seq = .busy 0x03 k .start) {d : DetailCode} (hcheck : imageCheck s = some d) :
    exec .fwValidate s = .next (finish .invalidData d s) := by
  rw [exec_fwValidate h, fwValidate, hcheck]
  exact congrArg _ (raise_eq_finish h (by decide) _ _)

theorem exec_fwValidate_of_check_none (h : s.seq = .busy 0x03 k .start) (hcheck : imageCheck s = none) :
    exec .fwValidate s = .next (finish .ok .none s) := by
  rw [exec_fwValidate h, fwValidate, hcheck]

end

/-- Settles O23: the operation reports what the image check returns. -/
theorem fwValidateReportsTheFirstFailure : Obligations.FwValidateReportsTheFirstFailure := by
  intro k s h ends tagOk sumOk
  exact ⟨fun hlen => exec_fwValidate_of_check_some h (imageCheck_of_bad_length hlen),
    fun hlen htag => exec_fwValidate_of_check_some h (imageCheck_of_bad_tag hlen htag),
    fun hlen htag hsum => exec_fwValidate_of_check_some h (imageCheck_of_bad_wordsum hlen htag hsum),
    fun hlen htag hsum => exec_fwValidate_of_check_none h (imageCheck_of_passes hlen htag hsum)⟩

/-! ## FU_ENCODE (R194) -/

section
variable {s : State} {k len : Nat} (opcode : Byte)

/-- Magic and opcode go in front of the payload, which stays where it stands. -/
theorem bytes_setBytes_head (h3 : 3 ≤ len) :
    (s.setBytes .frame 0 [0x46, 0x55, opcode]).bytes .frame 0 len = frameHead opcode (s.bytes .frame 3 (len - 3)) := by
  obtain ⟨n, rfl⟩ := Nat.exists_eq_add_of_le h3
  have hhead : (s.buf.setBytes .frame 0 [0x46, 0x55, opcode]).bytes .frame 0 3 = [0x46, 0x55, opcode] :=
    bytes_setBytes_same s.buf [0x46, 0x55, opcode] (show 3 ≤ 256 by decide)
  have hpayload : (s.buf.setBytes .frame 0 [0x46, 0x55, opcode]).bytes .frame 3 n = s.buf.bytes .frame 3 n :=
    bytes_setBytes_other s.buf _ (.inr (.inr le_rfl))
  rw [Nat.add_sub_cancel_left, State.bytes, setBytes_buf, bytes_add, hhead, Nat.zero_add, hpayload]
  rfl

theorem bytes_encodeFrame (h3 : 3 ≤ len) (h255 : len ≤ 255) :
    (encodeFrame opcode len s).bytes .frame 0 (len + 1) = fuFrame opcode (s.bytes .frame 3 (len - 3)) := by
  have hfits : len + 1 ≤ bufSize .frame := Nat.succ_le_succ h255
  rw [fuFrame, ← bytes_setBytes_head opcode h3]
  simp only [encodeFrame, State.bytes, setBytes_buf]
  rw [bytes_add, bytes_setBytes_other _ _ (.inr (.inl (Nat.zero_add len).le)), Nat.zero_add]
  exact congrArg _ (bytes_setBytes_same _ [_] hfits)

/-- The frame's first three bytes and its checksum are all that is written. -/
theorem byteAt_encodeFrame_other {c : Buf} {x : Nat} (hx : ¬(c = .frame ∧ (x < 3 ∨ x = len))) :
    (encodeFrame opcode len s).byteAt c x = s.byteAt c x := by
  have haway : c ≠ .frame ∨ 3 ≤ x ∧ x ≠ len := by
    rw [not_and_or, not_or, Nat.not_lt] at hx; exact hx
  calc (encodeFrame opcode len s).byteAt c x
    _ = (s.setBytes .frame 0 [0x46, 0x55, opcode]).byteAt c x :=
        byteAt_setBytes_other _ [_] (haway.imp id fun ⟨_, hne⟩ => Nat.lt_or_gt_of_ne hne)
    _ = s.byteAt c x := byteAt_setBytes_other s.buf _ (haway.imp id fun ⟨h3, _⟩ => .inr h3)

theorem exec_fuEncode (h : s.seq = .busy 0x04 k .start) : exec (.fuEncode opcode) s = .next (fuEncode opcode s) := by
  simp only [exec, execFuEncode, h]

theorem exec_fuEncode_of_length (h : s.seq = .busy 0x04 k .start) (h3 : 3 ≤ s.reg.fuLen.toNat)
    (h255 : s.reg.fuLen.toNat ≤ 255) :
    exec (.fuEncode opcode) s =
      .next (finish .ok .none { encodeFrame opcode s.reg.fuLen.toNat s with reg.fuLen := s.reg.fuLen + 1 }) := by
  have hlen : ¬(s.reg.fuLen.toNat < 3 ∨ 255 < s.reg.fuLen.toNat) := by omega
  rw [exec_fuEncode opcode h, fuEncode, if_neg hlen]

end

/-- Settles O24: in range the operation writes the head and the checksum, out of range it raises. -/
theorem fuEncodeBuildsTheFrame : Obligations.FuEncodeBuildsTheFrame := by
  intro opcode k s h len
  refine ⟨fun h3 h255 => ⟨_, exec_fuEncode_of_length opcode h h3 h255, rfl, bytes_encodeFrame opcode h3 h255,
    fun c x hx => byteAt_encodeFrame_other opcode hx⟩, fun hbad => ?illegal⟩
  case illegal =>
    rw [exec_fuEncode opcode h, fuEncode_of_badLength hbad, raise_eq_finish h (by decide)]
    rfl

/-! ## FU_DECODE (R195) -/

section
variable {s : State} {k : Nat} {request : Byte}

theorem exec_fuDecode (h : s.seq = .busy 0x05 k .start) (request : Byte) :
    exec (.fuDecode request) s = .next (fuDecode request s) := by simp only [exec, execFuDecode, h]

/-- What FU_DECODE checks: the first FU_LEN bytes of FRAME_BUF, as a reply in phase EN. -/
abbrev frameCheck (request : Byte) (s : State) : Option (ResultCode × DetailCode) :=
  fuReplyCheck (s.bytes .frame 0 s.reg.fuLen.toNat) request true

theorem exec_fuDecode_of_check_some (h : s.seq = .busy 0x05 k .start) (h4 : 4 ≤ s.reg.fuLen.toNat)
    (h256 : s.reg.fuLen.toNat ≤ 256) {r : ResultCode} {d : DetailCode} (hcheck : frameCheck request s = some (r, d)) :
    exec (.fuDecode request) s = .next (finish r d s) := by
  have hlen : ¬(s.reg.fuLen.toNat < 4 ∨ 256 < s.reg.fuLen.toNat) := by omega
  simp only [exec_fuDecode h, fuDecode, if_neg hlen, hcheck]
  exact congrArg _ (raise_eq_finish h (by decide) _ _)

theorem exec_fuDecode_of_check_none (h : s.seq = .busy 0x05 k .start) (h4 : 4 ≤ s.reg.fuLen.toNat)
    (h256 : s.reg.fuLen.toNat ≤ 256) (hcheck : frameCheck request s = none) :
    exec (.fuDecode request) s = .next (finish .ok .none s) := by
  have hlen : ¬(s.reg.fuLen.toNat < 4 ∨ 256 < s.reg.fuLen.toNat) := by omega
  simp only [exec_fuDecode h, fuDecode, if_neg hlen, hcheck]

end

/-- Settles O25: on a frame of at least four bytes the reply check reads bytes 0, 1 and 2, and passes its checksum exactly when
the sum is 0 mod 256. -/
theorem fuDecodeReportsTheFirstFailure : Obligations.FuDecodeReportsTheFirstFailure := by
  intro request k s h len f ends magic echoed
  refine ⟨fun hbad => ?illegal, fun h4 h256 => ?legal⟩
  case illegal =>
    rw [exec_fuDecode h, fuDecode_of_badLength hbad, raise_eq_finish h (by decide)]
    rfl
  case legal =>
    have hbyte {i : Nat} (hi : i < 4) (v : Byte) : f[i]? = some v ↔ s.byteAt .frame i = v :=
      (getElem?_bytes_zero s .frame (hi.trans_le h4)).congr_left.trans Option.some_inj
    have hmagic : magicOk f = true ↔ magic :=
      magicOk_iff.trans (and_congr (hbyte (by decide) _) (hbyte (by decide) _))
    have hecho : opcodeOk f request = true ↔ echoed := opcodeOk_iff.trans (hbyte (by decide) _)
    have hlen : f.length = len := length_bytes ..
    have hck : fuCkOk f = true ↔ byteSum f % 256 = 0 := fuCkOk_iff_byteSum (List.ne_nil_of_length_pos (by omega))
    rw [← hmagic, ← hck, ← hecho]
    exact ⟨fun hm => exec_fuDecode_of_check_some h h4 h256 (fuReplyCheck_of_bad_magic hm),
      fun hm hs => exec_fuDecode_of_check_some h h4 h256 (fuReplyCheck_of_bad_checksum hm (mt hck.1 hs)),
      fun hm hs he => exec_fuDecode_of_check_some h h4 h256 (fuReplyCheck_of_bad_opcode hm hs he),
      fun hm hs he => exec_fuDecode_of_check_none h h4 h256 (fuReplyCheck_of_passes hm hs he)⟩

/-- Settles O26: FU_LEN counts the checksum, so FU_DECODE reads the whole frame that FU_ENCODE built, and built frames pass the
reply check. -/
theorem encodedFramesDecode : Obligations.EncodedFramesDecode := by
  intro opcode k k' s t u hs h3 h255 ht hu hbuf hlen
  obtain rfl := Host.Outcome.next.inj ((exec_fuEncode_of_length opcode hs h3 h255).symm.trans ht)
  have hfuLen : u.reg.fuLen.toNat = s.reg.fuLen.toNat + 1 := by
    have hsucc : (s.reg.fuLen + 1).toNat = s.reg.fuLen.toNat + 1 := by bv_omega
    exact (congrArg BitVec.toNat hlen).trans hsucc
  have hframe : u.bytes .frame 0 u.reg.fuLen.toNat = fuFrame opcode (s.bytes .frame 3 (s.reg.fuLen.toNat - 3)) := by
    rw [hfuLen, ← bytes_encodeFrame opcode h3 h255, State.bytes, hbuf]; rfl
  have hcheck : frameCheck (opcode ^^^ 0x80) u = none := by rw [frameCheck, hframe, fuReplyCheck_fuFrame]
  exact exec_fuDecode_of_check_none hu (by omega) (by omega) hcheck

end Sys2Proof.Machine
end

section
/-! FW_UPDATE outside its packets: its start and validation, the steps between two packets, and the two runs that retune the
link, entering update mode and the teardown (43_fw_update.md R220 to R224, R230, R233 to R235). -/

namespace Sys2Proof.Machine

/-! ## The start and the validation (R221, R222) -/

section
variable {s : State} {k : Nat}

theorem exec_fwUpdate_start (h : s.seq = .busy 0x20 k .start) : exec .fwUpdate s = .next (updateStart s) := by
  simp only [exec, execFwUpdate, h]

theorem exec_fwUpdate_validate (h : s.seq = .busy 0x20 k .validate) : exec .fwUpdate s = .next (updateValidate s) := by
  simp only [exec, execFwUpdate, h]

theorem updateStart_of_attached (h : s.seq = .busy 0x20 k .start) (ha : s.link.attached = true) :
    updateStart s = { s with
      reg.fwPhase := 0, reg.chunk := 0, int.entered := false, seq := .busy 0x20 k .validate } :=
  ifAttached_of_attached (s := { s with reg.fwPhase := 0, reg.chunk := 0, int.entered := false }) h ha .validate

/-- ENTERED is 0 by then, so the abort has no teardown (60_exceptions.md R266). -/
theorem updateStart_of_detached (ha : s.link.attached = false) :
    updateStart s =
      finish .deviceNotAttached .none { s with reg.fwPhase := 0, reg.chunk := 0, int.entered := false } :=
  (if_neg (Bool.eq_false_iff.1 ha)).trans (raise_of_not_entered _ _ _ rfl)

theorem updateValidate_of_check_none (h : s.seq = .busy 0x20 k .validate) (hcheck : imageCheck s = none) :
    updateValidate s = { s with reg.fwPhase := 1, seq := .busy 0x20 k .enter } := by
  simp only [updateValidate, hcheck]
  exact goto_of_busy (s := { s with reg.fwPhase := 1 }) h .enter

theorem updateValidate_of_check_some (he : s.int.entered = false) {d : DetailCode} (hcheck : imageCheck s = some d) :
    updateValidate s = finish .invalidData d { s with reg.fwPhase := 1 } := by
  simp only [updateValidate, hcheck]
  exact raise_of_not_entered _ _ _ he

end

/-- Settles O44: the attachment decides the first step, the image check the second. -/
theorem updateStartsAndValidatesBeforeTheLink : Obligations.UpdateStartsAndValidatesBeforeTheLink := by
  intro k s
  refine ⟨fun h => ⟨fun ha => ?attached, fun ha => ?detached⟩, fun h he => ⟨fun hc => ?valid, fun d hc => ?invalid⟩⟩
  case attached => rw [exec_fwUpdate_start h, updateStart_of_attached h ha]
  case detached => rw [exec_fwUpdate_start h, updateStart_of_detached ha]; rfl
  case valid => rw [exec_fwUpdate_validate h, updateValidate_of_check_none h hc]
  case invalid => rw [exec_fwUpdate_validate h, updateValidate_of_check_some he hc]; rfl

/-! ## The steps between two packets (R220, R224, R230, R233) -/

section
variable {s : State} {k : Nat}

theorem exec_fwUpdate_enSleep (h : s.seq = .busy 0x20 k .enSleep) :
    exec .fwUpdate s =
      .next { s with link.history := s.link.history ++ [.sleep 1000], seq := .busy 0x20 (k + 1) (.pending .en) } := by
  rw [← sleepThen_of_busy h]
  simp only [exec, execFwUpdate, h]

theorem exec_fwUpdate_phase {st : Stage} (h : s.seq = .busy 0x20 k (.phase st)) :
    exec .fwUpdate s = .next { s with
      reg.fwPhase := st.phaseCode, reg.chunk := if st = Stage.part2 then 0 else s.reg.chunk
      seq := .busy 0x20 k (.build st) } := by
  simp only [exec, execFwUpdate, h, updatePhase, State.goto, seqGoto_busy]

theorem exec_fwUpdate_nextChunk (h : s.seq = .busy 0x20 k .nextChunk) :
    exec .fwUpdate s = .next { s with reg.chunk := s.reg.chunk + 1, seq := .busy 0x20 k (.build .part2) } := by
  simp only [exec, execFwUpdate, h, updateNextChunk, State.goto, seqGoto_busy]

theorem exec_fwUpdate_allPassed (h : s.seq = .busy 0x20 k .allPassed) :
    exec .fwUpdate s = .next { s with reg.fwPhase := 10, seq := .busy 0x20 k (.tearBaud .ok .none) } := by
  simp only [exec, execFwUpdate, h, updateAllPassed, State.goto, seqGoto_busy]

theorem exec_fwUpdate_ending {r : ResultCode} {d : DetailCode} (h : s.seq = .busy 0x20 k (.ending r d)) :
    exec .fwUpdate s = .next (finish r d s) := by
  simp only [exec, execFwUpdate, h]

/-- The phases after EN with their codes (30_encoding.md R108). -/
theorem phaseCode_of_mem {st : Stage} {code : BitVec 4}
    (h : (st, code) ∈ [(Stage.mode, (3 : BitVec 4)), (.di, 4), (.ct, 5), (.part1, 6), (.part2, 7), (.dt, 8), (.ad, 9)]) :
    st.phaseCode = code := by
  simp only [List.mem_cons, Prod.mk.injEq, List.not_mem_nil, or_false] at h
  obtain ⟨rfl, rfl⟩ | ⟨rfl, rfl⟩ | ⟨rfl, rfl⟩ | ⟨rfl, rfl⟩ | ⟨rfl, rfl⟩ | ⟨rfl, rfl⟩ | ⟨rfl, rfl⟩ := h
  all_goals rfl

/-- A 16-bit register counts up as its value does. -/
theorem add_one_eq_ofNat (x : BitVec 16) : x + 1 = BitVec.ofNat 16 (x.toNat + 1) := by
  rw [BitVec.ofNat_add, BitVec.ofNat_toNat, BitVec.setWidth_eq]; rfl

end

/-- Settles O45: each of these places has its step above. -/
theorem updateStepsBetweenPackets : Obligations.UpdateStepsBetweenPackets := by
  intro k s
  refine ⟨exec_fwUpdate_enSleep, fun st code hcode h => ?phase, fun h _ => ?nextChunk, exec_fwUpdate_allPassed,
    fun r d h => exec_fwUpdate_ending h⟩
  case phase => rw [exec_fwUpdate_phase h, phaseCode_of_mem hcode]
  case nextChunk => rw [exec_fwUpdate_nextChunk h, add_one_eq_ofNat]

/-! ## The link retuned (R223, R234) -/

/-- The two stretches of four primitives that retune the link: entering update mode, and the teardown with the outcome that it
carries. -/
inductive Retuning where
  | enter
  | tear (r : ResultCode) (d : DetailCode)

namespace Retuning

/-- Where `LinkSetBaud` stands. -/
def baudAt : Retuning → Point
  | enter => .enterBaud
  | tear r d => .tearBaud r d

/-- Where `LinkSetRTS` stands. -/
def rtsAt : Retuning → Point
  | enter => .enterRts
  | tear r d => .tearRts r d

/-- Where `Sleep(100)` stands. -/
def sleepAt : Retuning → Point
  | enter => .enterSleep
  | tear r d => .tearSleep r d

/-- Where `LinkClear` stands. -/
def clearAt : Retuning → Point
  | enter => .enterClear
  | tear r d => .tearClear r d

/-- Where FW_UPDATE goes on. -/
def next : Retuning → Point
  | enter => .build .en
  | tear r d => .ending r d

/-- The rate that is asked for. -/
def rate (s : State) : Retuning → BitVec 32
  | enter => 19200
  | tear _ _ => restoreBaud s

/-- The RTS level that is set. -/
def level (s : State) : Retuning → Bool
  | enter => false
  | tear _ _ => restoreRts s

end Retuning

section
variable {s t : State} {k : Nat} (w : Retuning)

/-- `LinkSetBaud`, whatever the device answers (20_memory.md R77). -/
theorem linkSetBaud_of_busy {op : Byte} {p : Point} (h : s.seq = .busy op k p) (rate : BitVec 32) :
    linkSetBaud rate s = { s with
      reg.linkBaud := if s.answer.fails then s.reg.linkBaud else rate
      link.lineBaud := if s.answer.fails then s.link.lineBaud else rate
      link.history := s.link.history ++ [.baud rate (!s.answer.fails)], env := s.drawn.env
      seq := .busy op (k + 1) p } := by
  cases ha : s.answer.fails with
  | false => exact linkSetBaud_ok h ha rate
  | true => exact linkSetBaud_fail h ha rate

theorem exec_fwUpdate_baudAt (h : s.seq = .busy 0x20 k w.baudAt) :
    exec .fwUpdate s = .next { s with
      reg.linkBaud := if s.answer.fails then s.reg.linkBaud else w.rate s
      link.lineBaud := if s.answer.fails then s.link.lineBaud else w.rate s
      link.history := s.link.history ++ [.baud (w.rate s) (!s.answer.fails)], env := s.drawn.env
      seq := .busy 0x20 (k + 1) w.rtsAt } := by
  have hset : exec .fwUpdate s = .next ((linkSetBaud (w.rate s) s).goto w.rtsAt) := by
    cases w <;> simp only [exec, execFwUpdate, h, Retuning.baudAt, Retuning.rate, Retuning.rtsAt]
  rw [hset, linkSetBaud_of_busy h]; rfl

theorem exec_fwUpdate_rtsAt (h : s.seq = .busy 0x20 k w.rtsAt) :
    exec .fwUpdate s = .next { s with
      reg.rts := w.level s, link.lineRts := w.level s, link.history := s.link.history ++ [.rts (w.level s)]
      seq := .busy 0x20 (k + 1) w.sleepAt } := by
  have hset : exec .fwUpdate s = .next ((linkSetRts (w.level s) s).goto w.sleepAt) := by
    cases w <;> simp only [exec, execFwUpdate, h, Retuning.rtsAt, Retuning.level, Retuning.sleepAt]
  rw [hset, goto_of_busy (p := w.rtsAt) (by rw [linkSetRts_seq, h, tick_busy])]; rfl

theorem exec_fwUpdate_sleepAt (h : s.seq = .busy 0x20 k w.sleepAt) :
    exec .fwUpdate s =
      .next { s with link.history := s.link.history ++ [.sleep 100], seq := .busy 0x20 (k + 1) w.clearAt } := by
  rw [← sleepThen_of_busy h]
  cases w <;> simp only [exec, execFwUpdate, h, Retuning.sleepAt, Retuning.clearAt]

theorem exec_fwUpdate_clearAt (h : s.seq = .busy 0x20 k w.clearAt) :
    exec .fwUpdate s = .next { s with
      link.rq := [], link.history := s.link.history ++ [.clr], seq := .busy 0x20 (k + 1) w.next } := by
  have hclear : exec .fwUpdate s = .next ((linkClear s).goto w.next) := by
    cases w <;> simp only [exec, execFwUpdate, h, Retuning.clearAt, Retuning.next]
  rw [hclear, goto_of_busy (p := w.clearAt) (by rw [linkClear_seq, h, tick_busy])]; rfl

/-- At a place of its own FW_UPDATE performs its row's step. -/
theorem Runs.update_step {u : State} {p : Point} (hrun : Runs s t) (hagenda : t.env.agenda = [])
    (h : t.seq = .busy 0x20 k p) (hp : p.isOwn = true) (hu : exec .fwUpdate t = .next u) : Runs s u :=
  hrun.own_step hagenda h hp rfl hu

/-- The four primitives of either stretch; what the later ones set does not depend on what the earlier ones changed. -/
theorem Runs.retune (hrun : Runs s t) (hagenda : t.env.agenda = []) (h : t.seq = .busy 0x20 k w.baudAt) :
    Runs s { t with
      reg.linkBaud := if t.answer.fails then t.reg.linkBaud else w.rate t
      reg.rts := w.level t
      link.rq := []
      link.lineBaud := if t.answer.fails then t.link.lineBaud else w.rate t
      link.lineRts := w.level t
      link.history := t.link.history ++ [.baud (w.rate t) (!t.answer.fails), .rts (w.level t), .sleep 100, .clr]
      env := t.drawn.env
      seq := .busy 0x20 (k + 4) w.next } := by
  have hbaud := hrun.update_step hagenda h (by cases w <;> rfl) (exec_fwUpdate_baudAt w h)
  have hrts := hbaud.update_step hagenda rfl (by cases w <;> rfl) (exec_fwUpdate_rtsAt w rfl)
  have hsleep := hrts.update_step hagenda rfl (by cases w <;> rfl) (exec_fwUpdate_sleepAt w rfl)
  have hclear := hsleep.update_step hagenda rfl (by cases w <;> rfl) (exec_fwUpdate_clearAt w rfl)
  simp only [List.append_assoc, List.cons_append, List.nil_append] at hclear
  cases w <;> exact hclear

theorem exec_fwUpdate_enter (h : s.seq = .busy 0x20 k .enter) :
    exec .fwUpdate s = .next { s with
      reg.fwPhase := 2, int.savedBaud := s.reg.linkBaud, int.savedRts := s.reg.rts, int.entered := true
      seq := .busy 0x20 k .enterBaud } := by
  simp only [exec, execFwUpdate, h, updateEnter, State.goto, seqGoto_busy]

theorem restoreBaud_eq (s : State) :
    restoreBaud s = if s.params.restorePolicy = .preserve then s.int.savedBaud else 115200 := by
  rw [restoreBaud]; cases s.params.restorePolicy <;> rfl

theorem restoreRts_eq (s : State) :
    restoreRts s = if s.params.restorePolicy = .preserve then s.int.savedRts else true := by
  rw [restoreRts]; cases s.params.restorePolicy <;> rfl

end

/-- Settles O46: the saves, then the stretch that asks for 19200 baud and RTS 0. -/
theorem updateEntersUpdateMode : Obligations.UpdateEntersUpdateMode := by
  intro k s h hagenda
  have henter := (Runs.refl s).update_step hagenda h rfl (exec_fwUpdate_enter h)
  exact henter.retune .enter hagenda rfl

/-- Settles O47: the stretch that restores what the policy says, then the ending step with the outcome that was carried. -/
theorem teardownRestoresTheLinkAndKeepsTheOutcome : Obligations.TeardownRestoresTheLinkAndKeepsTheOutcome := by
  intro k r d s h hagenda baud level
  have htear := (Runs.refl s).retune (.tear r d) hagenda h
  have hend := htear.update_step hagenda rfl rfl (exec_fwUpdate_ending rfl)
  simp only [Retuning.rate, Retuning.level, restoreBaud_eq, restoreRts_eq] at hend
  exact hend

end Sys2Proof.Machine
end

section
/-! The firmware packets as data: the request frames byte for byte with their lengths, and the checks that a phase makes of
its reply (43_fw_update.md R225 to R232, R239; 30_encoding.md R99). -/

namespace Sys2Proof.Machine

/-! ## Request frames -/

/-- The requests and replies of R99, in the ranges of 00_scope.md R10, are at most FRAME_CAP bytes long. -/
theorem packetLens_le_of_lengthsOk {p : Params} (h : p.lengthsOk = true) (st : Stage) :
    st.reqLen p ≤ Config.frameCap ∧ st.repLen p ≤ Config.frameCap := by
  simp only [Params.lengthsOk, Bool.and_eq_true, decide_eq_true_eq] at h
  obtain ⟨⟨⟨⟨⟨⟨⟨-, h80⟩, -⟩, hA2⟩, -⟩, hA4⟩, -⟩, hA5⟩ := h
  cases st <;> simp [Stage.reqLen, Stage.repLen, Config.frameCap, Config.infoLen, h80, hA2, hA4, hA5]

/-- The frame of a phase has the length that R99 gives its request. -/
theorem length_requestFrame {s : State} (h : s.params.lengthsOk = true) (st : Stage) :
    (requestFrame s st).length = st.reqLen s.params := by
  simp only [Params.lengthsOk, Bool.and_eq_true, decide_eq_true_eq] at h
  obtain ⟨⟨⟨⟨⟨⟨⟨h80, -⟩, hA2⟩, -⟩, -⟩, -⟩, -⟩, -⟩ := h
  rw [requestFrame, length_fuFrame]
  cases st with
  | mode => simp [payload, zeros, Stage.reqLen, h80]
  | part1 =>
    have hpayload : (payload s .part1).length = 64 + (s.params.frameA2Len - 68) := by simp [payload, zeros, State.bytes]
    rw [hpayload, Stage.reqLen]; omega
  | part2 => simp [payload, chunkBytes, State.bytes, Stage.reqLen]
  | _ => rfl

/-- The frames whose bytes are all fixed, the default 0x80 frame among them, with their checksums. -/
theorem fixed_frames :
    fuFrame 0xFF [0x45, 0x4E] = [0x46, 0x55, 0xFF, 0x45, 0x4E, 0xD3] ∧
      fuFrame 0x80 (zeros 23) = [0x46, 0x55, 0x80] ++ List.replicate 23 0x00 ++ [0xE5] ∧
      fuFrame 0x90 [0x44, 0x49] = [0x46, 0x55, 0x90, 0x44, 0x49, 0x48] ∧
      fuFrame 0xA0 [0x43, 0x54] = [0x46, 0x55, 0xA0, 0x43, 0x54, 0x2E] ∧
      fuFrame 0xA4 [0x44, 0x54] = [0x46, 0x55, 0xA4, 0x44, 0x54, 0x29] ∧
      fuFrame 0xA5 [0xFF, 0x41, 0x44] = [0x46, 0x55, 0xA5, 0xFF, 0x41, 0x44, 0x3C] := by decide

/-- The chunk index goes out high byte first (R230). -/
theorem chunk_bytes_eq (x : BitVec 16) :
    x.extractLsb' 8 8 = BitVec.ofNat 8 (x.toNat / 256) ∧ x.extractLsb' 0 8 = BitVec.ofNat 8 (x.toNat % 256) := by
  refine ⟨extractByte_eq_ofNat x 8, ?_⟩
  rw [ofNat_mod_byte, extractByte_eq_ofNat, pow_zero, Nat.div_one]

/-- Settles O49: a frame is its phase's payload between the head and the checksum. -/
theorem requestFramesAreTheSpecs : Obligations.RequestFramesAreTheSpecs := by
  intro s sealed
  obtain ⟨hen, hmode, hdi, hct, hdt, had⟩ := fixed_frames
  refine ⟨hen, fun h27 => ?mode, fun _ => rfl, hdi, hct, fun _ => ?part1, ?part2, hdt, had, fun hlen st m hm => ?lengths⟩
  case mode => rw [← hmode, requestFrame, payload, h27]; rfl
  case part1 => simp only [requestFrame, fuFrame, frameHead, payload, zeros, List.append_assoc]; rfl
  case part2 =>
    intro hi lo
    obtain ⟨hhi, hlo⟩ := chunk_bytes_eq s.reg.chunk
    simp only [requestFrame, payload, hhi, hlo]; rfl
  case lengths =>
    rw [length_requestFrame hlen]
    simp only [List.mem_cons, Prod.mk.injEq, List.not_mem_nil, or_false] at hm
    obtain ⟨rfl, rfl⟩ | ⟨rfl, rfl⟩ | ⟨rfl, rfl⟩ | ⟨rfl, rfl⟩ | ⟨rfl, rfl⟩ | ⟨rfl, rfl⟩ | ⟨rfl, rfl⟩ | ⟨rfl, rfl⟩ :=
      hm
    all_goals rfl

/-! ## Phase checks (60_exceptions.md R271) -/

section
variable {s : State} {st : Stage} {r : Bytes}

theorem zeroAt_iff {offs : List Nat} : zeroAt r offs = true ↔ ∀ o ∈ offs, r[o]? = some 0x00 := by
  simp [zeroAt]

theorem modelOk_iff {p : Params} : modelOk r p = true ↔ (r.drop p.modelNameOffset).take 9 = p.modelName := by
  simp [modelOk]

theorem indexOk_iff {p : Params} {chunk : BitVec 16} :
    indexOk r p chunk = true ↔
      r[p.a3IndexOffset]? = some (BitVec.ofNat 8 (chunk.toNat / 256)) ∧
        r[p.a3IndexOffset + 1]? = some (BitVec.ofNat 8 (chunk.toNat % 256)) := by
  obtain ⟨hhi, hlo⟩ := chunk_bytes_eq chunk
  simp [indexOk, hhi, hlo]

/-- In 0xA3 the echoed index is checked first. -/
theorem phaseCheck_of_bad_index (hst : st = .part2) (hindex : ¬indexOk r s.params s.reg.chunk = true) :
    phaseCheck s st r = some .rejIndex := if_pos ⟨hst, Bool.eq_false_iff.2 hindex⟩

theorem phaseCheck_of_bad_status (hindex : st = .part2 → indexOk r s.params s.reg.chunk = true)
    (hzero : ¬zeroAt r (st.statusOffs s.params) = true) : phaseCheck s st r = some .rejStatus := by
  rw [phaseCheck, if_neg fun ⟨hst, hbad⟩ => Bool.eq_false_iff.1 hbad (hindex hst), if_pos (Bool.eq_false_iff.2 hzero)]

/-- In 0x90 the model name is checked last. -/
theorem phaseCheck_of_bad_model (hst : st = .di) (hzero : zeroAt r (st.statusOffs s.params) = true)
    (hmodel : ¬modelOk r s.params = true) : phaseCheck s st r = some .rejModel := by
  subst hst
  simp [phaseCheck, hzero, hmodel]

theorem phaseCheck_of_passes (hindex : st = .part2 → indexOk r s.params s.reg.chunk = true)
    (hzero : zeroAt r (st.statusOffs s.params) = true) (hmodel : st = .di → modelOk r s.params = true) :
    phaseCheck s st r = none := by
  rw [phaseCheck, if_neg fun ⟨hst, hbad⟩ => Bool.eq_false_iff.1 hbad (hindex hst),
    if_neg fun hbad => Bool.eq_false_iff.1 hbad hzero, if_neg fun ⟨hst, hbad⟩ => Bool.eq_false_iff.1 hbad (hmodel hst)]

end

/-- Settles O53: the index in 0xA3, the status bytes, then the model name in 0x90. -/
theorem phaseChecksReportTheFirstFailure : Obligations.PhaseChecksReportTheFirstFailure := by
  intro s st r zero index model
  have hzero (offs : List Nat) : zeroAt r offs = true ↔ zero offs := zeroAt_iff
  have hindex : indexOk r s.params s.reg.chunk = true ↔ index := indexOk_iff
  have hmodel : modelOk r s.params = true ↔ model := modelOk_iff
  refine ⟨?en, fun offs hoffs => ?status, ?di, ?part2⟩
  case en => rintro rfl; exact phaseCheck_of_passes nofun rfl nofun
  case status =>
    have hst : st ≠ .part2 ∧ st ≠ .di ∧ st.statusOffs s.params = offs := by
      simp only [List.mem_cons, Prod.mk.injEq, List.not_mem_nil, or_false] at hoffs
      obtain ⟨rfl, rfl⟩ | ⟨rfl, rfl⟩ | ⟨rfl, rfl⟩ | ⟨rfl, rfl⟩ | ⟨rfl, rfl⟩ := hoffs
      all_goals exact ⟨nofun, nofun, rfl⟩
    obtain ⟨hpart2, hdi, rfl⟩ := hst
    rw [← hzero]
    exact ⟨fun h => phaseCheck_of_passes (absurd · hpart2) h (absurd · hdi),
      phaseCheck_of_bad_status (absurd · hpart2)⟩
  case di =>
    rintro rfl
    rw [← hzero, ← hmodel]
    exact ⟨phaseCheck_of_bad_status (st := .di) nofun, phaseCheck_of_bad_model rfl,
      fun h hm => phaseCheck_of_passes nofun h fun _ => hm⟩
  case part2 =>
    rintro rfl
    rw [← hzero, ← hindex]
    exact ⟨phaseCheck_of_bad_index rfl, fun hi => phaseCheck_of_bad_status (st := .part2) fun _ => hi,
      fun hi h => phaseCheck_of_passes (fun _ => hi) h nofun⟩

end Sys2Proof.Machine
end

section
/-! The two steps of each firmware request, the build and the transmission, and the two of each reply, the read and the check,
with the phase, the chunk or DONE that follows (43_fw_update.md R224 to R233). -/

namespace Sys2Proof.Machine

/-- A string written at the head of a buffer leaves every byte beyond it, and every other buffer, alone. -/
theorem byteAt_setBytes_head_other (m : Buffers) {b c : Buf} {x : Nat} (bs : Bytes) (h : ¬(c = b ∧ x < bs.length)) :
    (m.setBytes b 0 bs).byteAt c x = m.byteAt c x :=
  byteAt_setBytes_other m bs ((not_and_or.1 h).imp id fun hx => .inr (by omega))

/-! ## Requests (R224) -/

section
variable {s : State} {st : Stage} {k : Nat}

/-- With the parameters and CHUNK in range a request stays inside its buffers (20_memory.md R61). -/
theorem requestFits_of_inRange (hlen : s.params.lengthsOk = true) (hchunk : s.reg.chunk.toNat ≤ 168) (st : Stage) :
    requestFits s st = true := by
  have hfw : s.reg.chunk.toNat < Config.fwNChunks := Nat.lt_succ_of_le hchunk
  simp [requestFits, (packetLens_le_of_lengthsOk hlen st).1, hfw]

theorem packetStep_of_fits {fits : Bool} (hfits : fits = true) (t : State) : packetStep st st fits t = .next t :=
  (if_pos rfl).trans (if_pos hfits)

theorem exec_request_build (h : s.seq = .busy 0x20 k (.build st)) (hfits : requestFits s st = true) :
    exec st.requestInstr s = .next { s with
      buf := s.buf.setBytes .frame 0 (requestFrame s st), reg.fuLen := BitVec.ofNat 16 (requestFrame s st).length
      seq := .busy 0x20 k (.request st) } := by
  simp only [exec_requestInstr, requestStep, h, packetStep_of_fits hfits]
  exact congrArg _ (goto_of_busy (by exact h) _)

theorem exec_request_send {f : Bytes} (h : s.seq = .busy 0x20 k (.request st)) (hfits : requestFits s st = true)
    (hf : requestFrame s st = f) : exec st.requestInstr s = .next (transmit f (afterRequest st) s) := by
  subst hf
  simp only [exec_requestInstr, requestStep, h, packetStep_of_fits hfits, sendRequest]

/-- In update mode a write that fails is followed by the teardown (20_memory.md R72; 60_exceptions.md R266). -/
theorem transmit_ioerr_of_update {p : Point} (h : s.seq = .busy 0x20 k p) (he : s.int.entered = true)
    (ha : s.answer.fails = true) (bs : Bytes) (next : Point) :
    transmit bs next s = { s with
      link.tl := s.link.tl ++ bs.take s.answer.count, link.history := s.link.history ++ [.tx bs false]
      env := s.drawn.env, seq := .busy 0x20 (k + 1) (.tearBaud .writeError .linkWrite) } := by
  exact (transmit_ioerr h ha bs next).trans (raiseNext_of_update _ _ _ rfl he)

/-- The rows of the requests. -/
theorem requestRows_sound {i : Instr}
    (h : (i, st) ∈ [(Instr.fuReqEn, Stage.en), (.fuReqMode, .mode), (.fuReqDi, .di), (.fuReqCt, .ct), (.fuReqPart1, .part1),
      (.fuReqPart2, .part2), (.fuReqDt, .dt), (.fuReqAd, .ad)]) : i = st.requestInstr := by
  simp only [List.mem_cons, Prod.mk.injEq, List.not_mem_nil, or_false] at h
  obtain ⟨rfl, rfl⟩ | ⟨rfl, rfl⟩ | ⟨rfl, rfl⟩ | ⟨rfl, rfl⟩ | ⟨rfl, rfl⟩ | ⟨rfl, rfl⟩ | ⟨rfl, rfl⟩ | ⟨rfl, rfl⟩ := h
  all_goals rfl

end

/-- Settles O50: the frame fits FRAME_BUF, so it reads back and no other byte is written; what sends it is `LinkWrite` at its
call site. -/
theorem requestsSendTheirFrame : Obligations.RequestsSendTheirFrame := by
  intro i st k s hrow hlen hchunk f
  obtain rfl := requestRows_sound hrow
  have hfits : requestFits s st = true := requestFits_of_inRange hlen hchunk st
  refine ⟨fun h => ⟨_, exec_request_build h hfits, ?frame, fun c x hx => ?others, rfl⟩,
    fun h => ⟨fun ha => ?ok, fun ha he => ?ioerr⟩⟩
  case frame =>
    have hcap : 0 + f.length ≤ bufSize .frame := by
      rw [Nat.zero_add, length_requestFrame hlen]; exact (packetLens_le_of_lengthsOk hlen st).1
    exact bytes_setBytes_same s.buf f hcap
  case others => exact byteAt_setBytes_head_other s.buf f hx
  case ok => rw [exec_request_send h hfits rfl, transmit_ok h ha]; rfl
  case ioerr => rw [exec_request_send h hfits rfl, transmit_ioerr_of_update h he ha]

/-! ## Replies (R224 to R232) -/

/-- The buffers after a reply passed its reply check: RX_BUF keeps it, and INFO_BUF too in phase 0x90 (R227). -/
def Buffers.keepReply (m : Buffers) (st : Stage) (r : Bytes) : Buffers :=
  if st = .di then (m.setBytes .rx 0 r).setBytes .info 0 r else m.setBytes .rx 0 r

section
variable {m : Buffers} {st : Stage} {r : Bytes}

theorem keepReply_rx (hr : r.length ≤ Config.frameCap) : (m.keepReply st r).bytes .rx 0 r.length = r := by
  have hrx : (m.setBytes .rx 0 r).bytes .rx 0 r.length = r := bytes_setBytes_same m r (by rwa [Nat.zero_add])
  rw [Buffers.keepReply]
  split
  · exact (bytes_setBytes_other _ r (.inl (by decide))).trans hrx
  · exact hrx

theorem keepReply_info (hst : st = .di) (hr : r.length = Config.infoLen) :
    (m.keepReply st r).bytes .info 0 Config.infoLen = r := by
  rw [Buffers.keepReply, if_pos hst, ← hr]
  exact bytes_setBytes_same _ r (by rw [Nat.zero_add, hr]; rfl)

theorem keepReply_other {c : Buf} {x : Nat} (hrx : ¬(c = .rx ∧ x < r.length))
    (hinfo : ¬(c = .info ∧ st = .di ∧ x < r.length)) : (m.keepReply st r).byteAt c x = m.byteAt c x := by
  have hkept : (m.setBytes .rx 0 r).byteAt c x = m.byteAt c x := byteAt_setBytes_head_other m r hrx
  rw [Buffers.keepReply]
  split
  · next hst => exact (byteAt_setBytes_head_other _ r fun ⟨hc, hx⟩ => hinfo ⟨hc, hst, hx⟩).trans hkept
  · exact hkept

end

section
variable {s : State} {st : Stage} {r : Bytes} {k : Nat}

theorem replyFits_of_lengthsOk (hlen : s.params.lengthsOk = true) (st : Stage) : replyFits s st = true :=
  decide_eq_true (packetLens_le_of_lengthsOk hlen st).2

theorem exec_reply_read (h : s.seq = .busy 0x20 k (.reply st)) (hfits : replyFits s st = true) :
    exec st.replyInstr s = .next (receiveBytes (st.repLen s.params) (.gotReply st) s) := by
  simp only [exec_replyInstr, replyStep, h, packetStep_of_fits hfits]

theorem exec_reply_check (h : s.seq = .busy 0x20 k (.gotReply st r)) (hfits : replyFits s st = true)
    (hr : r.length = st.repLen s.params) : exec st.replyInstr s = .next (checkReply st r s) := by
  have hgot : gotFits s st r = true := Bool.and_eq_true_iff.2 ⟨decide_eq_true hr, hfits⟩
  simp only [exec_replyInstr, replyStep, h, packetStep_of_fits hgot]

/-- A reply that passes both its checks is kept, and the update goes on. -/
theorem checkReply_of_passes (h : s.seq = .busy 0x20 k (.gotReply st r)) (hcheck : fuReplyCheck r st.reqOp (st == .en) = none)
    (hphase : phaseCheck s st r = none) :
    checkReply st r s = { s with buf := s.buf.keepReply st r, seq := .busy 0x20 k (afterPhase s st) } := by
  have hphase' : phaseCheck (s.setBytes .rx 0 r) st r = none := hphase
  simp only [checkReply, hcheck, acceptReply, hphase']
  rw [goto_of_busy (op := 0x20) (k := k) (p := .gotReply st r) (by split <;> exact h), Buffers.keepReply]
  split <;> rfl

/-- The rows of the replies: the bytes that are read, and where a reply that passes leads. -/
theorem replyRows_sound {i : Instr} {m : Nat} {next : Point}
    (h : (i, st, m, next) ∈
      [(Instr.fuRepEn, Stage.en, 32, Point.phase .mode), (.fuRepMode, .mode, 5, .phase .di), (.fuRepDi, .di, 50, .phase .ct),
        (.fuRepCt, .ct, 6, .phase .part1), (.fuRepPart1, .part1, 6, .phase .part2),
        (.fuRepPart2, .part2, 8, if s.reg.chunk.toNat < 168 then .nextChunk else .phase .dt),
        (.fuRepDt, .dt, s.params.replyLenA4, .phase .ad), (.fuRepAd, .ad, s.params.replyLenA5, .allPassed)]) :
    i = st.replyInstr ∧ m = st.repLen s.params ∧ next = afterPhase s st := by
  have hlast : (if s.reg.chunk.toNat < 168 then Point.nextChunk else .phase .dt) = afterPhase s .part2 :=
    if_congr Nat.succ_lt_succ_iff.symm rfl rfl
  rw [hlast] at h
  simp only [List.mem_cons, Prod.mk.injEq, List.not_mem_nil, or_false] at h
  obtain ⟨rfl, rfl, rfl, rfl⟩ | ⟨rfl, rfl, rfl, rfl⟩ | ⟨rfl, rfl, rfl, rfl⟩ | ⟨rfl, rfl, rfl, rfl⟩ | ⟨rfl, rfl, rfl, rfl⟩ |
    ⟨rfl, rfl, rfl, rfl⟩ | ⟨rfl, rfl, rfl, rfl⟩ | ⟨rfl, rfl, rfl, rfl⟩ := h
  all_goals exact ⟨rfl, rfl, rfl⟩

end

/-- Settles O51: the read is `LinkReadBytes` at its call site, and a reply that passes both its checks is kept. -/
theorem repliesThatPassGoOn : Obligations.RepliesThatPassGoOn := by
  intro i st k m next s hrow hlen
  obtain ⟨rfl, rfl, rfl⟩ := replyRows_sound hrow
  have hfits : replyFits s st = true := replyFits_of_lengthsOk hlen st
  refine ⟨fun h ha hqueued => ?read, fun r h hr hcheck hphase => ?check⟩
  case read => rw [exec_reply_read h hfits, receiveBytes_ok h ha hqueued]
  case check =>
    have hcap : r.length ≤ Config.frameCap := hr ▸ (packetLens_le_of_lengthsOk hlen st).2
    refine ⟨_, (exec_reply_check h hfits hr).trans (congrArg _ (checkReply_of_passes h hcheck hphase)), ?rx, fun hst => ?info,
      fun c x hrx hinfo => ?others, rfl⟩
    case rx => rw [← hr]; exact keepReply_rx hcap
    case info => subst hst; exact keepReply_info rfl hr
    case others =>
      rw [← hr] at hrx
      refine keepReply_other hrx fun ⟨hc, hst, hx⟩ => hinfo ⟨hc, hst, ?_⟩
      subst hst
      rwa [hr] at hx

end Sys2Proof.Machine
end

section
/-! The upload of part 2 with an empty agenda and a device that answers every chunk well: one request and one reply as a
stretch of a run, then the 169 chunks (43_fw_update.md R224, R230). -/

namespace Sys2Proof.Machine

/-! ## A request and its reply as stretches of a run (R224) -/

section
variable {s t u : State} {st : Stage} {k : Nat} {r rest : Bytes}

/-- A request is made of FW_BUF, CHUNK and the parameters alone. -/
theorem requestFrame_congr (hfw : ∀ a n, u.bytes .fw a n = t.bytes .fw a n) (hchunk : u.reg.chunk = t.reg.chunk)
    (hparams : u.params = t.params) : requestFrame u st = requestFrame t st := by
  cases st <;> simp only [requestFrame, payload, chunkBytes, hfw, hchunk, hparams]

/-- The image is not written by a string that goes to another buffer. -/
theorem fw_bytes_setBytes (m : Buffers) {b : Buf} (hb : .fw ≠ b) (bs : Bytes) (a n : Nat) :
    (m.setBytes b 0 bs).bytes .fw a n = m.bytes .fw a n := bytes_setBytes_other m bs (.inl hb)

theorem Runs.request_step {p : Point} (hrun : Runs s t) (hagenda : t.env.agenda = []) (h : t.seq = .busy 0x20 k p)
    (hp : p = .build st ∨ p = .request st) (hu : exec st.requestInstr t = .next u) : Runs s u :=
  hrun.engine_step hagenda ((engineStep_of_decode (fetch_request h hp) (decode_reqOp st)).trans hu)

theorem Runs.reply_step {p : Point} (hrun : Runs s t) (hagenda : t.env.agenda = []) (h : t.seq = .busy 0x20 k p)
    (hp : p = .reply st ∨ ∃ r, p = .gotReply st r) (hu : exec st.replyInstr t = .next u) : Runs s u :=
  hrun.engine_step hagenda ((engineStep_of_decode (fetch_reply h hp) (decode_repOp st)).trans hu)

theorem Runs.request_ok (hrun : Runs s t) (hagenda : t.env.agenda = []) (h : t.seq = .busy 0x20 k (.build st))
    (hfits : requestFits t st = true) (ha : t.answer.fails = false) :
    Runs s { t with
      buf := t.buf.setBytes .frame 0 (requestFrame t st), reg.fuLen := BitVec.ofNat 16 (requestFrame t st).length
      link.tl := t.link.tl ++ requestFrame t st, link.history := t.link.history ++ [.tx (requestFrame t st) true]
      env := t.drawn.env, seq := .busy 0x20 (k + 1) (afterRequest st) } := by
  have hbuild := hrun.request_step hagenda h (.inl rfl) (exec_request_build h hfits)
  refine hbuild.request_step hagenda rfl (.inr rfl)
    ((exec_request_send rfl (by exact hfits) ?frame).trans (congrArg _ (transmit_ok rfl (by exact ha) _ _)))
  case frame => exact requestFrame_congr (fw_bytes_setBytes t.buf (b := .frame) (by decide) _) rfl rfl

/-- A reply that passes its checks is waited for, read and kept. -/
theorem Runs.reply_ok (hrun : Runs s t) (hagenda : t.env.agenda = []) (h : t.seq = .busy 0x20 k (.pending st))
    (hfits : replyFits t st = true) (ha : t.answer.fails = false) (hrq : t.link.rq = r ++ rest)
    (hlen : r.length = st.repLen t.params) (hcheck : fuReplyCheck r st.reqOp (st == .en) = none)
    (hphase : phaseCheck t st r = none) :
    Runs s { t with
      buf := t.buf.keepReply st r, link.rq := rest
      link.history := t.link.history ++ [.pend, .rxn (st.repLen t.params) (some r)]
      env := t.drawn.env, seq := .busy 0x20 (k + 2) (afterPhase t st) } := by
  have hne : t.link.rq ≠ [] := by
    have hr : r ≠ [] := by rintro rfl; cases hcheck
    rw [hrq]; exact List.append_ne_nil_of_left_ne_nil hr rest
  have hqueued : st.repLen t.params ≤ t.link.rq.length := by
    rw [hrq, List.length_append, hlen]; exact Nat.le_add_right _ _
  have htake : t.link.rq.take (st.repLen t.params) = r := by rw [hrq, List.take_left' hlen]
  have hdrop : t.link.rq.drop (st.repLen t.params) = rest := by rw [hrq, List.drop_left' hlen]
  have hwait := hrun.update_step hagenda h rfl ((waitPendingHoldsOnAnEmptyQueue st k t h).1 hne)
  have hread := hwait.reply_step hagenda rfl (.inl rfl)
    ((exec_reply_read rfl (by exact hfits)).trans (congrArg _ (receiveBytes_ok rfl (by exact ha) (by exact hqueued) _)))
  rw [htake, hdrop] at hread
  have hkeep := hread.reply_step hagenda rfl (.inr ⟨r, rfl⟩)
    ((exec_reply_check rfl (by exact hfits) (by exact hlen)).trans
      (congrArg _ (checkReply_of_passes rfl hcheck (by exact hphase))))
  simp only [List.append_assoc, List.cons_append, List.nil_append] at hkeep
  exact hkeep

end

/-! ## The chunks of part 2 (R230) -/

/-- The device answers at least `n` more draws, and all of them well. -/
def AnswersWell (n : Nat) (e : Env) : Prop := n ≤ e.answers.length ∧ ∀ a ∈ e.answers, a.fails = false

/-- The frame of chunk `i` of the image that `s` holds. -/
def chunkFrame (s : State) (i : Nat) : Bytes :=
  fuFrame 0xA3 ([0x00, BitVec.ofNat 8 i] ++ s.bytes .fw (0x40 + 64 * i) 64)

/-- A reply to chunk `i` that passes every check of phase 0xA3. -/
structure GoodChunkReply (p : Params) (i : Nat) (r : Bytes) : Prop where
  length : r.length = 8
  check : fuReplyCheck r 0xA3 false = none
  index : indexOk r p (BitVec.ofNat 16 i) = true
  status : zeroAt r p.statusOffs.part2 = true

/-- From `s` the run has sent the first `i` chunks, consumed their replies `rep`, and come to `t`, where the engine stands at
`p` with `rest` queued behind the replies to come. -/
structure Uploaded (s : State) (rep : Nat → Bytes) (rest : Bytes) (k i : Nat) (p : Point) (t : State) : Prop where
  runs : Runs s t
  seq : t.seq = .busy 0x20 (k + 3 * i) p
  agenda : t.env.agenda = []
  answers : AnswersWell (2 * (169 - i)) t.env
  rq : t.link.rq = ((List.range 169).drop i).flatMap rep ++ rest
  tl : t.link.tl = s.link.tl ++ (List.range i).flatMap (chunkFrame s)
  fw : ∀ a n, t.bytes .fw a n = s.bytes .fw a n
  params : t.params = s.params

section
variable {s t : State} {rep : Nat → Bytes} {rest r : Bytes} {k i n : Nat}

/-- A draw takes one of the answers to come. -/
theorem AnswersWell.draw (h : AnswersWell (n + 1) s.env) : s.answer.fails = false ∧ AnswersWell n s.drawn.env := by
  obtain ⟨hlen, hwell⟩ := h
  cases hs : s.env.answers with
  | nil => rw [hs] at hlen; cases hlen
  | cons a as =>
    rw [hs] at hlen hwell
    have htail : s.drawn.env.answers = as := drawn_answers hs
    refine ⟨answer_cons s hs ▸ hwell a List.mem_cons_self, ?_, ?_⟩
    · rw [htail]; exact Nat.le_of_succ_le_succ hlen
    · rw [htail]; exact fun b hb => hwell b (List.mem_cons_of_mem a hb)

theorem toNat_chunk (hi : i < 169) : (BitVec.ofNat 16 i).toNat = i := by
  rw [BitVec.toNat_ofNat, Nat.mod_eq_of_lt (by omega)]

/-- An index below 169 has a high byte of 0. -/
theorem requestFrame_part2 (hchunk : t.reg.chunk = BitVec.ofNat 16 i) (hi : i < 169)
    (hfw : ∀ a n, t.bytes .fw a n = s.bytes .fw a n) : requestFrame t .part2 = chunkFrame s i := by
  obtain ⟨hhi, hlo⟩ := chunk_bytes_eq (BitVec.ofNat 16 i)
  rw [toNat_chunk hi, Nat.div_eq_of_lt (by omega)] at hhi
  rw [toNat_chunk hi, Nat.mod_eq_of_lt (by omega)] at hlo
  rw [requestFrame, payload, chunkBytes, hchunk, hhi, hlo, toNat_chunk hi, hfw]
  rfl

theorem GoodChunkReply.phaseCheck (h : GoodChunkReply t.params i r) (hchunk : t.reg.chunk = BitVec.ofNat 16 i) :
    phaseCheck t .part2 r = none :=
  phaseCheck_of_passes (fun _ => by rw [hchunk]; exact h.index) h.status nofun

/-- After the last chunk phase 0xA4 begins. -/
theorem afterPhase_part2 (hchunk : t.reg.chunk = BitVec.ofNat 16 i) (hi : i < 169) :
    afterPhase t .part2 = if i < 168 then .nextChunk else .phase .dt := by
  rw [afterPhase, hchunk, toNat_chunk hi]
  exact if_congr Nat.succ_lt_succ_iff rfl rfl

/-- One chunk: its frame is sent and its reply consumed. -/
theorem Uploaded.send_chunk (h : Uploaded s rep rest k i (.build .part2) t) (hchunk : t.reg.chunk = BitVec.ofNat 16 i)
    (hi : i < 169) (hgood : GoodChunkReply t.params i (rep i)) :
    ∃ u, Uploaded s rep rest k (i + 1) (if i < 168 then .nextChunk else .phase .dt) u ∧ u.reg.chunk = BitVec.ofNat 16 i := by
  have hdraws : 2 * (169 - i) = 2 * (169 - (i + 1)) + 1 + 1 := by omega
  obtain ⟨hwrite, hanswers⟩ := AnswersWell.draw (s := t) (hdraws ▸ h.answers)
  obtain ⟨hread, hanswers'⟩ := AnswersWell.draw (s := t.drawn) hanswers
  have hrq : t.link.rq = rep i ++ (((List.range 169).drop (i + 1)).flatMap rep ++ rest) := by
    rw [h.rq, List.drop_eq_getElem_cons (by rwa [List.length_range]), List.getElem_range, List.flatMap_cons,
      List.append_assoc]
  have hfits : requestFits t .part2 = true := by
    rw [requestFits, hchunk, toNat_chunk hi]; exact decide_eq_true hi
  have hframe : requestFrame t .part2 = chunkFrame s i := requestFrame_part2 hchunk hi h.fw
  have hsent := h.runs.request_ok h.agenda h.seq hfits hwrite
  have hreplied := hsent.reply_ok h.agenda rfl rfl (by exact hread) (by exact hrq) hgood.length hgood.check
    (by exact hgood.phaseCheck hchunk)
  refine ⟨_, ⟨hreplied, ?seq, h.agenda, hanswers', rfl, ?tl, fun a n => ?fw, h.params⟩, hchunk⟩
  case seq => exact congrArg (Seq.busy _ _) (afterPhase_part2 hchunk hi)
  case tl =>
    change t.link.tl ++ requestFrame t .part2 = _
    rw [h.tl, hframe, List.append_assoc, List.range_succ, List.flatMap_append, List.flatMap_singleton]
  case fw =>
    rw [← h.fw]
    exact (fw_bytes_setBytes _ (b := .rx) (by decide) _ a n).trans (fw_bytes_setBytes _ (b := .frame) (by decide) _ a n)

theorem Uploaded.next_chunk (h : Uploaded s rep rest k i .nextChunk t) :
    Uploaded s rep rest k i (.build .part2)
      { t with reg.chunk := t.reg.chunk + 1, seq := .busy 0x20 (k + 3 * i) (.build .part2) } :=
  ⟨h.runs.update_step h.agenda h.seq rfl (exec_fwUpdate_nextChunk h.seq), rfl, h.agenda, h.answers, h.rq, h.tl, h.fw,
    h.params⟩

/-- Every chunk's request is reached, after those before it. -/
theorem uploaded_of_good_replies (h : Uploaded s rep rest k 0 (.build .part2) s) (hchunk : s.reg.chunk = 0)
    (hgood : ∀ i, i < 169 → GoodChunkReply s.params i (rep i)) (hi : i < 169) :
    ∃ t, Uploaded s rep rest k i (.build .part2) t ∧ t.reg.chunk = BitVec.ofNat 16 i := by
  induction i with
  | zero => exact ⟨s, h, hchunk⟩
  | succ i ih =>
    obtain ⟨t, ht, htchunk⟩ := ih (by omega)
    obtain ⟨u, hu, huchunk⟩ := ht.send_chunk htchunk (by omega) (ht.params ▸ hgood i (by omega))
    rw [if_pos (Nat.lt_of_succ_lt_succ hi)] at hu
    refine ⟨_, hu.next_chunk, ?_⟩
    change u.reg.chunk + 1 = _
    rw [huchunk, add_one_eq_ofNat, toNat_chunk (by omega)]

end

/-- Settles O54: the induction over the chunks leads to the last one, and phase 0xA4 follows it. -/
theorem uploadStreamsEveryChunkInOrder : Obligations.UploadStreamsEveryChunkInOrder := by
  intro k s rep rest h hagenda hchunk hanswers hwell hrq hreplies
  have hgood (i : Nat) (hi : i < 169) : GoodChunkReply s.params i (rep i) := by
    obtain ⟨hlen, hcheck, hindex, hstatus⟩ := hreplies i hi
    exact ⟨hlen, hcheck, hindex, hstatus⟩
  have hstart : Uploaded s rep rest k 0 (.build .part2) s :=
    ⟨.refl s, h, hagenda, ⟨hanswers, hwell⟩, hrq, (List.append_nil _).symm, fun _ _ => rfl, rfl⟩
  obtain ⟨t, ht, htchunk⟩ := uploaded_of_good_replies hstart hchunk hgood (i := 168) (by decide)
  obtain ⟨u, hu, huchunk⟩ := ht.send_chunk htchunk (by decide) (ht.params ▸ hgood 168 (by decide))
  obtain ⟨n, hrun⟩ := hu.runs
  exact ⟨n, u, hrun, hu.seq, huchunk, hu.rq, hu.tl⟩

end Sys2Proof.Machine
end

section
/-! The abort, and the ways a firmware reply fails: the failed read, the failed reply check and the failed phase check, each
followed by the teardown (60_exceptions.md R266, R271). -/

namespace Sys2Proof.Machine

/-! ## The abort (R266) -/

section
variable {s : State} {op : Byte} {k : Nat} {p : Point}

/-- In update mode an internal update that aborts goes to the teardown. -/
theorem raise_eq_teardown (h : s.seq = .busy 0x20 k p) (he : s.int.entered = true) (r : ResultCode) (d : DetailCode) :
    raise r d s = { s with seq := .busy 0x20 k (.tearBaud r d) } :=
  (raise_of_update s r d (congrArg Seq.isUpdate h) he).trans (goto_of_busy h _)

/-- In update mode a primitive whose outcome aborts is followed by the teardown. -/
theorem raiseNext_eq_teardown (h : s.seq = .busy 0x20 k p) (he : s.int.entered = true) (r : ResultCode) (d : DetailCode) :
    raiseNext r d s = { s with seq := .busy 0x20 k (.tearBaud r d) } :=
  (raiseNext_of_update s r d (congrArg Seq.isUpdate h) he).trans (goto_of_busy h _)

/-- Before ENTERED = 1 the ending step follows. -/
theorem raiseNext_of_not_entered (r : ResultCode) (d : DetailCode) (he : s.int.entered = false) :
    raiseNext r d s = s.goto (.ending r d) := by simp [raiseNext, he]

end

/-- Settles O48: the teardown takes FW_UPDATE and ENTERED = 1 together; where either is missing the operation ends. -/
theorem abortTearsDownOnlyAnEnteredUpdate : Obligations.AbortTearsDownOnlyAnEnteredUpdate := by
  intro r d op k p s h
  refine ⟨fun hop he => ?teardown, fun hout => ?ending⟩
  case teardown =>
    subst hop
    exact ⟨raise_eq_teardown h he r d, raiseNext_eq_teardown h he r d⟩
  case ending =>
    rw [← goto_of_busy h]
    obtain hop | he := hout
    · exact ⟨raise_eq_finish h hop r d, raiseNext_of_not_update s r d (not_isUpdate_of_busy h hop)⟩
    · exact ⟨raise_of_not_entered s r d he, raiseNext_of_not_entered r d he⟩

/-! ## Replies that fail (R271) -/

section
variable {s : State} {st : Stage} {r : Bytes} {k : Nat}

/-- In update mode a read that fails is followed by the teardown (20_memory.md R74). -/
theorem receiveBytes_ioerr_of_update {p : Point} (h : s.seq = .busy 0x20 k p) (he : s.int.entered = true)
    (ha : s.answer.fails = true) (n : Nat) (next : Bytes → Point) :
    receiveBytes n next s = { s with
      link.rq := s.link.rq.drop s.answer.count, link.history := s.link.history ++ [.rxn n none], env := s.drawn.env
      seq := .busy 0x20 (k + 1) (.tearBaud .readError .linkRead) } :=
  (receiveBytes_ioerr h ha n next).trans (raiseNext_of_update _ _ _ rfl he)

/-- The buffers after a reply was checked: RX_BUF keeps every reply, INFO_BUF only one that passed its reply check
(42_fu_framer.md R199; 43_fw_update.md R227). -/
def Buffers.keepChecked (m : Buffers) (st : Stage) (r : Bytes) : Buffers :=
  if fuReplyCheck r st.reqOp (st == .en) = none then m.keepReply st r else m.setBytes .rx 0 r

theorem keepChecked_rx (m : Buffers) (hr : r.length ≤ Config.frameCap) : (m.keepChecked st r).bytes .rx 0 r.length = r := by
  rw [Buffers.keepChecked]
  split
  · exact keepReply_rx hr
  · exact bytes_setBytes_same m r (by rwa [Nat.zero_add])

theorem keepChecked_info (m : Buffers) (hst : st = .di) (hr : r.length = Config.infoLen)
    (hcheck : fuReplyCheck r st.reqOp (st == .en) = none) : (m.keepChecked st r).bytes .info 0 Config.infoLen = r := by
  rw [Buffers.keepChecked, if_pos hcheck]
  exact keepReply_info hst hr

theorem keepChecked_other (m : Buffers) {c : Buf} {x : Nat} (hrx : ¬(c = .rx ∧ x < r.length))
    (hinfo : ¬(c = .info ∧ st = .di ∧ x < r.length ∧ fuReplyCheck r st.reqOp (st == .en) = none)) :
    (m.keepChecked st r).byteAt c x = m.byteAt c x := by
  rw [Buffers.keepChecked]
  split
  · next hcheck => exact keepReply_other hrx fun ⟨hc, hst, hx⟩ => hinfo ⟨hc, hst, hx, hcheck⟩
  · exact byteAt_setBytes_head_other m r hrx

/-- A reply that fails a check is followed by the teardown with that check's outcome; the reply check decides first. -/
theorem checkReply_of_fails {e : ResultCode} {d : DetailCode} (h : s.seq = .busy 0x20 k (.gotReply st r))
    (he : s.int.entered = true)
    (hfail : fuReplyCheck r st.reqOp (st == .en) = some (e, d) ∨
      (fuReplyCheck r st.reqOp (st == .en) = none ∧ e = .writeError ∧ phaseCheck s st r = some d)) :
    checkReply st r s = { s with buf := s.buf.keepChecked st r, seq := .busy 0x20 k (.tearBaud e d) } := by
  obtain hcheck | ⟨hcheck, rfl, hphase⟩ := hfail
  · simp only [checkReply, Buffers.keepChecked, hcheck]
    exact raise_eq_teardown (s := s.setBytes .rx 0 r) h he e d
  · have hphase' : phaseCheck (s.setBytes .rx 0 r) st r = some d := hphase
    simp only [checkReply, Buffers.keepChecked, hcheck, acceptReply, hphase', Buffers.keepReply]
    split
    · exact raise_eq_teardown (s := (s.setBytes .rx 0 r).setBytes .info 0 r) h he _ _
    · exact raise_eq_teardown (s := s.setBytes .rx 0 r) h he _ _

/-- The rows of the replies: the instruction, and the bytes that are read. -/
theorem replyLenRows_sound {i : Instr} {m : Nat}
    (h : (i, st, m) ∈
      [(Instr.fuRepEn, Stage.en, 32), (.fuRepMode, .mode, 5), (.fuRepDi, .di, 50), (.fuRepCt, .ct, 6),
        (.fuRepPart1, .part1, 6), (.fuRepPart2, .part2, 8), (.fuRepDt, .dt, s.params.replyLenA4),
        (.fuRepAd, .ad, s.params.replyLenA5)]) : i = st.replyInstr ∧ m = st.repLen s.params := by
  simp only [List.mem_cons, Prod.mk.injEq, List.not_mem_nil, or_false] at h
  obtain ⟨rfl, rfl, rfl⟩ | ⟨rfl, rfl, rfl⟩ | ⟨rfl, rfl, rfl⟩ | ⟨rfl, rfl, rfl⟩ | ⟨rfl, rfl, rfl⟩ | ⟨rfl, rfl, rfl⟩ |
    ⟨rfl, rfl, rfl⟩ | ⟨rfl, rfl, rfl⟩ := h
  all_goals exact ⟨rfl, rfl⟩

end

/-- Settles O52: the read is `LinkReadBytes` at its call site, and the first check that fails gives the teardown its outcome. -/
theorem repliesThatFailTearDown : Obligations.RepliesThatFailTearDown := by
  intro i st k m s hrow he hlen
  obtain ⟨rfl, rfl⟩ := replyLenRows_sound hrow
  have hfits : replyFits s st = true := replyFits_of_lengthsOk hlen st
  refine ⟨fun h => ⟨fun ha => ?ioerr, fun ha hfew => ?holds⟩, fun r e d h hr hfail => ?fails⟩
  case ioerr => rw [exec_reply_read h hfits, receiveBytes_ioerr_of_update h he ha]
  case holds => rw [exec_reply_read h hfits, receiveBytes_holds ha hfew]; rfl
  case fails =>
    have hcap : r.length ≤ Config.frameCap := hr ▸ (packetLens_le_of_lengthsOk hlen st).2
    refine ⟨_, (exec_reply_check h hfits hr).trans (congrArg _ (checkReply_of_fails h he hfail)), ?rx, fun hst hcheck => ?info,
      fun c x hrx hinfo => ?others, rfl⟩
    case rx => rw [← hr]; exact keepChecked_rx s.buf hcap
    case info => exact keepChecked_info s.buf hst (by subst hst; exact hr) hcheck
    case others =>
      rw [← hr] at hrx
      refine keepChecked_other s.buf hrx fun ⟨hc, hst, hx, hcheck⟩ => hinfo ⟨hc, hst, ?_, hcheck⟩
      subst hst
      rwa [hr] at hx

end Sys2Proof.Machine
end

section
/-! Reset: what it restores in any state, and that the reset state meets the invariant (70_reset_and_hazards.md R290 to R292). -/

namespace Sys2Proof.Machine

/-- Settles O2: the prefix is what the reset event says has left of the write in progress. -/
theorem resetRestoresEveryRegisterAndNotTheLink : Obligations.ResetRestoresEveryRegisterAndNotTheLink := fun n s =>
  ⟨(writeInProgress s).take n, List.take_prefix n _, rfl⟩

/-! ## The parameters at reset (00_scope.md R10) -/

section
variable {tag name : Bytes} {off : Nat} {map : PlatformMap}

/-- The defaults lie in their ranges, so that only the OPEN parameters are left to check. -/
theorem defaults_ok_iff :
    (Config.defaults tag name off map).ok = true ↔
      (1 ≤ tag.length ∧ tag.length ≤ 0x40) ∧ name.length = Config.modelNameLen ∧ 4 ≤ off ∧ off ≤ 40 := by
  have hlens : (Config.defaults tag name off map).lengthsOk = true := rfl
  have hoffs : (Config.defaults tag name off map).offsetsOk = true := rfl
  simp only [Params.ok, hlens, hoffs, Params.tagOk, Params.modelOk, Bool.and_true, Bool.and_eq_true, decide_eq_true_eq,
    and_assoc]
  rfl

end

/-- The free values are typed and cut so that the OPEN parameters lie in their ranges too (log 7). -/
theorem config_params_ok : Config.params.ok = true := by
  refine defaults_ok_iff.2 ⟨⟨?tagNonempty, ?tagFits⟩, ?nameLength, ?offsetLow, ?offsetHigh⟩
  case tagNonempty => exact Nat.succ_pos _
  case tagFits => exact Nat.succ_le_succ (List.length_take_le 63 _)
  case nameLength => exact Vector.length_toList
  case offsetLow => exact Nat.le_add_right 4 _
  case offsetHigh => have := Config.modelNameOffsetLess4.isLt; omega

/-! ## The reset state -/

/-- The reset state meets the invariant at every legal choice of the parameters. -/
theorem resetWith_inv {p : Params} (hp : p.ok = true) : (State.resetWith p).Inv where
  params := hp
  buffers := atReset_wf 0
  sel := Nat.zero_le _
  phase := Nat.zero_le _
  chunk := Nat.zero_lt_succ _
  outcome := .inl ⟨rfl, rfl⟩
  busy := by simp [State.resetWith, Regs.atReset]
  notBoth := by simp [State.resetWith, Regs.atReset]
  done := fun _ => by simp [State.resetWith, Regs.atReset]
  cmd := fun _ _ _ h => by cases h
  place := fun _ _ _ h => by cases h

/-- Settles O55: only the parameters depend on free values, and these lie in their ranges. -/
theorem resetMeetsTheInvariant : Obligations.ResetMeetsTheInvariant := resetWith_inv config_params_ok

end Sys2Proof.Machine
end
